-- ==== Sys2Proof/Word.lean ====
section
/-! DEFINITION. The unsigned widths of the block (00_scope.md R9): u8, u16, u24, u32. No value of the block is signed. -/

namespace Sys2Proof

/-- u8 (R9): a byte of the line, a frame type, a small counter. -/
abbrev Byte := BitVec 8

/-- u16 (R9): a CRC, a subcommand. -/
abbrev Half := BitVec 16

/-- u24 (R9): a staged retry interval. -/
abbrev U24 := BitVec 24

/-- u32 (R9): a register, a command word, an instant or a statistics counter. -/
abbrev Word := BitVec 32

end Sys2Proof
end

