-- ==== Sys2Proof/Syntax.lean ====
section
/-! DEFINITION. The sixteen commands of 30_encoding.md R61, one constructor per row of the opcode map, with the
operands of R59 and R60 in the order of the assembler syntax R74. -/

namespace Sys2Proof

/-- The CRC mode operand `m` of SEND_ANSWER (R60). -/
inductive CrcMode where
  /-- 0: the CRC flag of the message being handled. -/
  | inherit
  /-- 1 -/
  | off
  /-- 2 -/
  | on
  /-- 3, the one reserved operand value (R63): the command fails with BAD_OPERAND. -/
  | reserved
deriving DecidableEq, Repr

/-- The handler result codes 0 to 7, in the order of 60_exceptions.md R156. All eight are legal. -/
inductive HandlerResult where
  | ok
  | unsupportedMessage
  | unexpectedMessage
  | unsupportedSubcommand
  | wrongMessageStructure
  | invalidAnswer
  | runtimeError
  | unknownError
deriving DecidableEq, Repr

/-- A command. A bit operand is a Bool; every other operand has the width of its field. -/
inductive Instr where
  /-- NOP (45_system.md R146) -/
  | nop
  /-- RESET (70_reset_and_hazards.md R170) -/
  | reset
  /-- LOOP (44_sequencer.md R128) -/
  | loop
  /-- CRC_INIT h (41_crc_checksum.md R99) -/
  | crcInit (h : Half)
  /-- CRC_FEED b (R100) -/
  | crcFeed (b : Byte)
  /-- CHK_INIT b (R101) -/
  | chkInit (b : Byte)
  /-- CHK_FEED b (R102) -/
  | chkFeed (b : Byte)
  /-- STAGE_CLEAR (44_sequencer.md R137) -/
  | stageClear
  /-- STAGE_PUSH b (R138) -/
  | stagePush (b : Byte)
  /-- STAGE_SUBCMD h (R139) -/
  | stageSubcmd (h : Half)
  /-- STAGE_RETRY t (R140) -/
  | stageRetry (t : U24)
  /-- SEND_MESSAGE ft, c, r (R133) -/
  | sendMessage (ft : Byte) (c : Bool) (r : Byte)
  /-- SEND_MESSAGE_NA ft, c (R134) -/
  | sendMessageNa (ft : Byte) (c : Bool)
  /-- SEND_ANSWER ft, m (R135) -/
  | sendAnswer (ft : Byte) (m : CrcMode)
  /-- NO_ANSWER (R136) -/
  | noAnswer
  /-- HANDLER_RETURN res (R132) -/
  | handlerReturn (res : HandlerResult)
deriving DecidableEq, Repr

end Sys2Proof
end

