-- ==== Sys2Proof/Decode.lean ====
section
/-! DEFINITION. The command word (30_encoding.md section 1): fields, decoder, encoder and the bits each command uses. -/

namespace Sys2Proof

/-- `W[31:24]` (R58). -/
def opcode (w : Word) : Byte := w.extractLsb' 24 8

/-- `b` and `ft`, both `W[7:0]` (R60). -/
def fieldB (w : Word) : Byte := w.extractLsb' 0 8

/-- `h = W[15:0]` (R60). -/
def fieldH (w : Word) : Half := w.extractLsb' 0 16

/-- `t = W[23:0]` (R60). -/
def fieldT (w : Word) : U24 := w.extractLsb' 0 24

/-- `r = W[23:16]` (R60). -/
def fieldR (w : Word) : Byte := w.extractLsb' 16 8

/-- `c = W[8]` (R60). -/
def fieldC (w : Word) : Bool := w.getLsbD 8

/-- `m = W[9:8]` (R60). -/
def fieldM (w : Word) : BitVec 2 := w.extractLsb' 8 2

/-- `res = W[2:0]` (R60). -/
def fieldRes (w : Word) : BitVec 3 := w.extractLsb' 0 3

/-- The CRC mode a two-bit field names (R60). -/
def CrcMode.ofCode (m : BitVec 2) : CrcMode :=
  if m = 0 then .inherit else if m = 1 then .off else if m = 2 then .on else .reserved

/-- The field a CRC mode is written as (R60). -/
def CrcMode.code : CrcMode → BitVec 2
  | .inherit => 0
  | .off => 1
  | .on => 2
  | .reserved => 3

/-- The handler result a three-bit field names (60_exceptions.md R156). -/
def HandlerResult.ofCode (c : BitVec 3) : HandlerResult :=
  if c = 0 then .ok else if c = 1 then .unsupportedMessage else if c = 2 then .unexpectedMessage
  else if c = 3 then .unsupportedSubcommand else if c = 4 then .wrongMessageStructure
  else if c = 5 then .invalidAnswer else if c = 6 then .runtimeError else .unknownError

/-- The code of a handler result (R156). -/
def HandlerResult.code : HandlerResult → BitVec 3
  | .ok => 0
  | .unsupportedMessage => 1
  | .unexpectedMessage => 2
  | .unsupportedSubcommand => 3
  | .wrongMessageStructure => 4
  | .invalidAnswer => 5
  | .runtimeError => 6
  | .unknownError => 7

/-- Why a command word is no command. -/
inductive DecodeError where
  /-- The opcode is not in the map R61: the command fails with ILLEGAL_OPCODE (R62). -/
  | illegalOpcode (op : Byte)
deriving DecidableEq, Repr

/-- The command of a word, selected by `W[31:24]` alone (R61), with the operands of its format (R59, R60). -/
def decode (w : Word) : Except DecodeError Instr :=
  match opcode w with
  | 0x00#8 => .ok .nop
  | 0x01#8 => .ok .reset
  | 0x02#8 => .ok .loop
  | 0x10#8 => .ok (.crcInit (fieldH w))
  | 0x11#8 => .ok (.crcFeed (fieldB w))
  | 0x12#8 => .ok (.chkInit (fieldB w))
  | 0x13#8 => .ok (.chkFeed (fieldB w))
  | 0x20#8 => .ok .stageClear
  | 0x21#8 => .ok (.stagePush (fieldB w))
  | 0x22#8 => .ok (.stageSubcmd (fieldH w))
  | 0x23#8 => .ok (.stageRetry (fieldT w))
  | 0x30#8 => .ok (.sendMessage (fieldB w) (fieldC w) (fieldR w))
  | 0x31#8 => .ok (.sendMessageNa (fieldB w) (fieldC w))
  | 0x32#8 => .ok (.sendAnswer (fieldB w) (CrcMode.ofCode (fieldM w)))
  | 0x33#8 => .ok .noAnswer
  | 0x34#8 => .ok (.handlerReturn (HandlerResult.ofCode (fieldRes w)))
  | op => .error (.illegalOpcode op)

/-- The opcode column of the map R61. -/
def Instr.opcode : Instr → Byte
  | .nop => 0x00#8
  | .reset => 0x01#8
  | .loop => 0x02#8
  | .crcInit _ => 0x10#8
  | .crcFeed _ => 0x11#8
  | .chkInit _ => 0x12#8
  | .chkFeed _ => 0x13#8
  | .stageClear => 0x20#8
  | .stagePush _ => 0x21#8
  | .stageSubcmd _ => 0x22#8
  | .stageRetry _ => 0x23#8
  | .sendMessage _ _ _ => 0x30#8
  | .sendMessageNa _ _ => 0x31#8
  | .sendAnswer _ _ => 0x32#8
  | .noAnswer => 0x33#8
  | .handlerReturn _ => 0x34#8

/-- An operand at its place in `W[23:0]`, its least significant bit at bit `lo`. -/
def operandAt {n : Nat} (lo : Nat) (v : BitVec n) : BitVec 24 := v.setWidth 24 <<< lo

/-- `W[23:0]` of a command: its operands at the places of R59, ignored bits 0 (R74). -/
def Instr.operandBits : Instr → BitVec 24
  | .nop => 0
  | .reset => 0
  | .loop => 0
  | .crcInit h => operandAt 0 h
  | .crcFeed b => operandAt 0 b
  | .chkInit b => operandAt 0 b
  | .chkFeed b => operandAt 0 b
  | .stageClear => 0
  | .stagePush b => operandAt 0 b
  | .stageSubcmd h => operandAt 0 h
  | .stageRetry t => operandAt 0 t
  | .sendMessage ft c r => operandAt 16 r ||| operandAt 8 (BitVec.ofBool c) ||| operandAt 0 ft
  | .sendMessageNa ft c => operandAt 8 (BitVec.ofBool c) ||| operandAt 0 ft
  | .sendAnswer ft m => operandAt 8 m.code ||| operandAt 0 ft
  | .noAnswer => 0
  | .handlerReturn res => operandAt 0 res.code

/-- The assembled word of a command: `opcode << 24 | fields` (R74). -/
def encode (i : Instr) : Word := (i.opcode.setWidth 32 <<< 24) ||| i.operandBits.setWidth 32

/-- The bits of a word that its command does not ignore (R59, R63): the opcode and its format's operands. -/
def usedBits (op : Byte) : Word :=
  match op with
  | 0x10#8 | 0x22#8 => 0xFF00FFFF
  | 0x11#8 | 0x12#8 | 0x13#8 | 0x21#8 => 0xFF0000FF
  | 0x23#8 => 0xFFFFFFFF
  | 0x30#8 => 0xFFFF01FF
  | 0x31#8 => 0xFF0001FF
  | 0x32#8 => 0xFF0003FF
  | 0x34#8 => 0xFF000007
  | _ => 0xFF000000

/-- The instruction the decoder reads from the `nbits` bits `w`. A command is one 32-bit word that the host writes
as a number (R58, R63), so it has no bytes to order; a shorter `nbits` leaves the bits above it 0. -/
def decodeTableWord (nbits w : Nat) : Option Instr :=
  match decode (BitVec.ofNat 32 (w % 2 ^ nbits)) with
  | .ok i => some i
  | .error _ => none

end Sys2Proof
end

