-- ==== Sys2Proof/Config.lean ====
section
/-! DEFINITION. The implementation parameters of 00_scope.md R6 and their constraints R7. The three OPEN
parameters have no value in the spec: here they are opaque constants whose types are exactly their legal ranges. -/

namespace Sys2Proof

/-- The arguments of the model (R6), and the window's base, which the platform chooses (20_memory.md R50).
State carries one such record, which no rule changes (log 1). -/
structure Params where
  /-- MAX_FRAME_SIZE: the largest legal size byte. -/
  maxFrameSize : Nat
  /-- RB_CAP: the requested capacity of the receive ring buffer. -/
  rbCap : Nat
  /-- FIFO_CAP: the capacity of the incoming frame queue. -/
  fifoCap : Nat
  /-- OQ_CAP: the capacity of the outgoing queue. -/
  oqCap : Nat
  /-- FRAME_TIMEOUT_MS: the stale-frame timeout. -/
  frameTimeoutMs : Nat
  /-- ANSWER_TIMEOUT_MS (OPEN): the answer timeout. -/
  answerTimeoutMs : Nat
  /-- COOLDOWN_MS (OPEN): the least delay between queued transmissions. -/
  cooldownMs : Nat
  /-- MAX_RETRIES (OPEN): the cap on a request's retry count. -/
  maxRetries : Nat
  /-- The address of the register window in the host's address space (R50; log 3). -/
  windowBase : Word
deriving DecidableEq, Repr

/-- The constraints R7 that the model checks at instantiation. -/
abbrev Params.Legal (p : Params) : Prop :=
  8 ≤ p.maxFrameSize ∧ p.maxFrameSize ≤ 254 ∧ p.rbCap ≤ 65535 ∧
  1 ≤ p.fifoCap ∧ p.fifoCap ≤ 255 ∧ 1 ≤ p.oqCap ∧ p.oqCap ≤ 255 ∧ p.maxRetries ≤ 254 ∧
  p.answerTimeoutMs < 2 ^ 31 ∧ p.cooldownMs < 2 ^ 31 ∧ p.frameTimeoutMs < 2 ^ 31

namespace Config

/-- OPEN (R6, D12): 0 to 2^31 - 1 and nothing more is known (log 2). -/
opaque answerTimeoutMs : BitVec 31

/-- OPEN (R6, D13): 0 to 2^31 - 1 and nothing more is known (log 2). -/
opaque cooldownMs : BitVec 31

/-- OPEN (R6, D14): 0 to 254 and nothing more is known (log 2). -/
opaque maxRetries : Fin 255

/-- The parameters after reset: the default R6 takes where it takes one, the opaque constants for the OPEN rows,
and window base 0 (log 3). -/
def params : Params where
  maxFrameSize := 241
  rbCap := 512
  fifoCap := 8
  oqCap := 8
  frameTimeoutMs := 300
  answerTimeoutMs := answerTimeoutMs.toNat
  cooldownMs := cooldownMs.toNat
  maxRetries := maxRetries.val
  windowBase := 0

end Config

end Sys2Proof
end

