-- ==== Sys2Proof/Machine/State.lean ====
section
/-! DEFINITION. The state record of 10_state.md R21 as plain data, the stops of the machine, and the reset state.
Queues are lists with the oldest element first (00_scope.md R13). -/

namespace Sys2Proof.Machine

/-- The command error codes 0 to 8 of 60_exceptions.md R153; no other code is ever written (log 12). -/
inductive CmdCode where
  | ok
  | illegalOpcode
  | badOperand
  | busyInCallout
  | notInHandler
  | notInCallout
  | stageFull
  | oversize
  | queueFull
deriving DecidableEq, Repr

/-- The frame error codes 0 to 11 of 60_exceptions.md R155; no other code is ever written (log 12). -/
inductive FrameError where
  | none
  | separatorWrong
  | headerTooSmall
  | headerTooBig
  | frameTooSmall
  | frameTooBig
  | dataSizeWrong
  | checksumWrong
  | crcWrong
  | wrongPostByte
  | unknownData
  | frameTimeout
deriving DecidableEq, Repr

/-- SCN.phase (10_state.md R29): codes 0, 1, 2; code 3 never occurs. -/
inductive Phase where
  | sync
  | header
  | body
deriving DecidableEq, Repr

/-- ENG.state (10_state.md R27). -/
inductive EngState where
  | idle
  | waiting
deriving DecidableEq, Repr

/-- ENG.callout and EVT.kind (10_state.md R27, R32). -/
inductive Callout where
  | none
  | message
  | answer
  | timeout
deriving DecidableEq, Repr

/-- SCN, the frame scanner (10_state.md R29). -/
structure Scanner where
  phase : Phase
  /-- Bytes at the front of RB accepted into the attempt; a u16 that legal parameters keep in range (log 7). -/
  consumed : Nat
  /-- The logical bytes of the attempt, the two separators first. -/
  asm : List Byte
  /-- Escapes accepted for bytes of the covered range. -/
  esc : Byte
  /-- TIME at which the start was locked. -/
  start : Word
  useCrc : Bool
  ftype : Byte
  dataLen : Byte
deriving DecidableEq, Repr

/-- A TimestampedFrame of FIFO (10_state.md R30). -/
structure RxFrame where
  ftype : Byte
  useCrc : Bool
  data : List Byte
  arrival : Word
deriving DecidableEq, Repr

/-- An OutgoingQueueItem of OQ (10_state.md R31). -/
structure OutItem where
  ftype : Byte
  data : List Byte
  useCrc : Bool
  expectsAnswer : Bool
  retries : Byte
  retryInterval : U24
deriving DecidableEq, Repr

/-- ENG, the sequencer (10_state.md R27). -/
structure Engine where
  state : EngState
  callout : Callout
  processing : Bool
  answerSent : Bool
  noAnswer : Bool
  inUseCrc : Bool
  lastSend : Word
  coolArmed : Bool
  ansBase : Word
  retryBase : Word
  retryWait : Word
deriving DecidableEq, Repr

/-- EVT, the callout event registers (10_state.md R32); `data` has 256 bytes. -/
structure Event where
  kind : Callout
  reqType : Byte
  ftype : Byte
  useCrc : Bool
  len : Byte
  time : Word
  data : List Byte
deriving DecidableEq, Repr

/-- STG, the message staging registers (10_state.md R25). -/
structure Staging where
  data : List Byte
  subcmd : Half
  retry : U24
deriving DecidableEq, Repr

/-- STAT, the eight statistics counters (10_state.md R38), in the order of their indices. -/
structure Stats where
  /-- STAT[0] GARBAGE -/
  garbage : Word
  /-- STAT[1] FRAME_ERRORS -/
  frameErrors : Word
  /-- STAT[2] RX_FRAMES -/
  rxFrames : Word
  /-- STAT[3] FIFO_DROPS -/
  fifoDrops : Word
  /-- STAT[4] SHED -/
  shed : Word
  /-- STAT[5] TX_FRAMES -/
  txFrames : Word
  /-- STAT[6] TIMEOUTS -/
  timeouts : Word
  /-- STAT[7] NO_ANSWER -/
  noAnswer : Word
deriving DecidableEq, Repr

/-- One atomic step of an agent (20_memory.md R52). A host access carries its address in the host's space. -/
inductive AgentStep where
  /-- MemRead (45_system.md R147) -/
  | hostRead (addr : Word)
  /-- MemWrite (R148) -/
  | hostWrite (addr v : Word)
  /-- RxArrive (R149) -/
  | rxArrive (x : Byte)
  /-- Tick (R150) -/
  | tick
deriving DecidableEq, Repr

/-- Why the machine stops. -/
inductive Fault where
  /-- RB_PEEK_RANGE: `rb_peek` was given an index outside RB (40_ring_fifo.md R81). Raised by `rbPeek`; no rule of the
  spec gives it such an index. Safe: the model stops where the spec says it faults. -/
  | rbPeekRange
  /-- LOOP found ENG in WAITING with OQ empty, where 44_sequencer.md R131 reads OQ.head. Raised by `waitingStep`; no
  run reaches such a state (10_state.md R27). Safe: the spec gives the read no value (log 8). -/
  | noOutstandingRequest
deriving DecidableEq, Repr

/-- What the model declines to run. -/
inductive Refusal where
  /-- An instruction without a meaning yet, by its mnemonic. Raised by no arm of this model. Safe. -/
  | notModelled (mnemonic : String)
  /-- A configuration outside 00_scope.md R7. Raised by `instantiate`, never by a step. Safe: the spec refuses it. -/
  | illegalParams
deriving DecidableEq, Repr

/-- The state record (10_state.md R21) and three fields of the model's own: `params`, `pending`, `hostReads`. -/
structure State where
  /-- TIME (R39) -/
  time : Word
  /-- CRC_ACC (R23) -/
  crcAcc : Half
  /-- CHK_ACC (R24) -/
  chkAcc : Byte
  /-- RB (R28) -/
  rb : List Byte
  /-- SCN (R29) -/
  scn : Scanner
  /-- FIFO (R30) -/
  fifo : List RxFrame
  /-- OQ (R31) -/
  oq : List OutItem
  /-- ENG (R27) -/
  eng : Engine
  /-- EVT (R32) -/
  evt : Event
  /-- STG (R25) -/
  stg : Staging
  /-- CMD_STATUS (R33) -/
  cmdStatus : CmdCode
  /-- WARN (R34) -/
  warn : BitVec 7
  /-- IE (R35) -/
  ie : BitVec 2
  /-- FRAME_ERR (R36) -/
  frameErr : FrameError
  /-- HRESULT (R37) -/
  hresult : HandlerResult
  /-- STAT (R38) -/
  stat : Stats
  /-- RX_LINE (R40) -/
  rxLine : List Byte
  /-- TX_LINE (R40) -/
  txLine : List Byte
  /-- The model's own: the instantiation parameters (00_scope.md R6), written by no rule (log 1). -/
  params : Params
  /-- The model's own: the agents' steps to come, in their total order (20_memory.md R52; log 4). -/
  pending : List AgentStep
  /-- The model's own: every value a host read has returned, oldest first (log 5). -/
  hostReads : List Word
deriving DecidableEq, Repr

/-- SCN at reset and after every return to SYNC (R29, 43_frame_scanner.md R125). -/
def Scanner.idle : Scanner where
  phase := .sync
  consumed := 0
  asm := []
  esc := 0
  start := 0
  useCrc := false
  ftype := 0
  dataLen := 0

/-- ENG at reset (R27). -/
def Engine.zero : Engine where
  state := .idle
  callout := .none
  processing := false
  answerSent := false
  noAnswer := false
  inUseCrc := false
  lastSend := 0
  coolArmed := false
  ansBase := 0
  retryBase := 0
  retryWait := 0

/-- EVT at reset (R32). -/
def Event.zero : Event where
  kind := .none
  reqType := 0
  ftype := 0
  useCrc := false
  len := 0
  time := 0
  data := List.replicate 256 0

/-- STG at reset (R25). -/
def Staging.zero : Staging where
  data := []
  subcmd := 0
  retry := 0

/-- STAT at reset (R38). -/
def Stats.zero : Stats where
  garbage := 0
  frameErrors := 0
  rxFrames := 0
  fifoDrops := 0
  shed := 0
  txFrames := 0
  timeouts := 0
  noAnswer := 0

/-- Power-on reset of an instance with parameters `p` (70_reset_and_hazards.md R169, R171). -/
def State.powerOn (p : Params) : State where
  time := 0
  crcAcc := 0
  chkAcc := 0
  rb := []
  scn := Scanner.idle
  fifo := []
  oq := []
  eng := Engine.zero
  evt := Event.zero
  stg := Staging.zero
  cmdStatus := .ok
  warn := 0
  ie := 0
  frameErr := .none
  hresult := .ok
  stat := Stats.zero
  rxLine := []
  txLine := []
  params := p
  pending := []
  hostReads := []

/-- The machine right after power-on reset: R171 for the spec's elements, `Config.params` for the parameters. -/
def State.reset : State := State.powerOn Config.params

end Sys2Proof.Machine
end

