-- ==== Sys2Proof/Machine/Operands.lean ====
section
/-! DEFINITION. What a field or a parameter stands for: the derived parameters of 00_scope.md R6, the codes of the
closed sets as registers show them, the CRC mode and the retry count of the transmit commands, and the packing of
fields into a 32-bit register. -/

namespace Sys2Proof.Machine

/-- SEP, the separator byte (00_scope.md R6). -/
def sep : Byte := 0xFF

/-- POST, the post-byte after an escaped separator (R6). -/
def post : Byte := 0x55

/-- CRC_FLAG, header byte 3 of a frame with CRC (R6). -/
def crcFlag : Byte := 0x40

/-- MAX_DATA_SIZE (R6). -/
def maxDataSize (p : Params) : Nat := p.maxFrameSize - 8

/-- PHYS_MAX, the longest physical frame (R6, 30_encoding.md R71). -/
def physMax (p : Params) : Nat := 2 + 2 * (p.maxFrameSize + 3)

/-- RB_CAP_EFF (10_state.md R28). -/
def rbCapEff (p : Params) : Nat := max p.rbCap (physMax p)

/-- The u8 that CMD_STATUS shows (60_exceptions.md R153). -/
def cmdCodeBits : CmdCode → Byte
  | .ok => 0
  | .illegalOpcode => 1
  | .badOperand => 2
  | .busyInCallout => 3
  | .notInHandler => 4
  | .notInCallout => 5
  | .stageFull => 6
  | .oversize => 7
  | .queueFull => 8

/-- The four bits that FRAME_ERR shows (60_exceptions.md R155). -/
def frameErrorBits : FrameError → BitVec 4
  | .none => 0
  | .separatorWrong => 1
  | .headerTooSmall => 2
  | .headerTooBig => 3
  | .frameTooSmall => 4
  | .frameTooBig => 5
  | .dataSizeWrong => 6
  | .checksumWrong => 7
  | .crcWrong => 8
  | .wrongPostByte => 9
  | .unknownData => 10
  | .frameTimeout => 11

/-- The two bits of SCN.phase (10_state.md R29). -/
def phaseBits : Phase → BitVec 2
  | .sync => 0
  | .header => 1
  | .body => 2

/-- The bit of ENG.state (10_state.md R27). -/
def engStateBit : EngState → BitVec 1
  | .idle => 0
  | .waiting => 1

/-- The two bits of ENG.callout and EVT.kind (10_state.md R27). -/
def calloutBits : Callout → BitVec 2
  | .none => 0
  | .message => 1
  | .answer => 2
  | .timeout => 3

/-- The CRC flag SEND_ANSWER uses for a defined mode (44_sequencer.md R135): INHERIT takes ENG.in_use_crc. -/
def answerCrc (m : CrcMode) (inUse : Bool) : Bool :=
  match m with
  | .inherit => inUse
  | .off => false
  | .on => true
  | .reserved => false

/-- `min(r, MAX_RETRIES) + 1` (44_sequencer.md R133), a u8. -/
def retryCount (p : Params) (r : Byte) : Byte := BitVec.ofNat 8 (min r.toNat p.maxRetries + 1)

/-- A field placed with its least significant bit at bit `lo` of a register (10_state.md R41). -/
def fieldAt {n : Nat} (lo : Nat) (v : BitVec n) : Word := v.setWidth 32 <<< lo

/-- Byte `i` of a byte sequence, 0 past its end. -/
def byteAt (s : List Byte) (i : Nat) : Byte := s.getD i 0

/-- The register offset of a host access: modulo 4096 with bits [1:0] ignored (20_memory.md R48). -/
def regOffset (off : Nat) : Nat := off % 4096 - off % 4

/-- The offset of a host address in the window (R50). -/
def windowOffset (p : Params) (addr : Word) : Nat := (addr - p.windowBase).toNat

end Sys2Proof.Machine
end

