-- ==== Sys2Proof/Machine/Flags.lean ====
section
/-! DEFINITION. The sticky WARN bits, the STAT counters, the deadline tests and the interrupt output. -/

namespace Sys2Proof.Machine

/-- WARN bits 0 to 6 as masks (10_state.md R34). -/
def warnGarbage : BitVec 7 := 0x01
/-- WARN[1] FRAME_ERR -/
def warnFrameErr : BitVec 7 := 0x02
/-- WARN[2] FIFO_OVERFLOW -/
def warnFifoOverflow : BitVec 7 := 0x04
/-- WARN[3] SHED -/
def warnShed : BitVec 7 := 0x08
/-- WARN[4] NO_ANSWER -/
def warnNoAnswer : BitVec 7 := 0x10
/-- WARN[5] HANDLER_ERR -/
def warnHandlerErr : BitVec 7 := 0x20
/-- WARN[6] CMD_ERR -/
def warnCmdErr : BitVec 7 := 0x40

/-- Set the WARN bits of a mask; no bit is cleared (R34). -/
def setWarn (m : BitVec 7) (s : State) : State := { s with warn := s.warn ||| m }

/-- Replace STAT by a function of it (R38). -/
def mapStat (f : Stats → Stats) (s : State) : State := { s with stat := f s.stat }

/-- STAT[0] + n mod 2^32 -/
def addGarbage (n : Nat) (s : State) : State :=
  mapStat (fun t => { t with garbage := t.garbage + BitVec.ofNat 32 n }) s

/-- STAT[1] + 1 mod 2^32 -/
def addFrameError (s : State) : State := mapStat (fun t => { t with frameErrors := t.frameErrors + 1 }) s

/-- STAT[2] + 1 mod 2^32 -/
def addRxFrame (s : State) : State := mapStat (fun t => { t with rxFrames := t.rxFrames + 1 }) s

/-- STAT[3] + 1 mod 2^32 -/
def addFifoDrop (s : State) : State := mapStat (fun t => { t with fifoDrops := t.fifoDrops + 1 }) s

/-- STAT[4] + n mod 2^32 -/
def addShed (n : Nat) (s : State) : State := mapStat (fun t => { t with shed := t.shed + BitVec.ofNat 32 n }) s

/-- STAT[5] + 1 mod 2^32 -/
def addTxFrame (s : State) : State := mapStat (fun t => { t with txFrames := t.txFrames + 1 }) s

/-- STAT[6] + 1 mod 2^32 -/
def addTimeout (s : State) : State := mapStat (fun t => { t with timeouts := t.timeouts + 1 }) s

/-- STAT[7] + 1 mod 2^32 -/
def addNoAnswer (s : State) : State := mapStat (fun t => { t with noAnswer := t.noAnswer + 1 }) s

/-- STAT[k] for k = 0 to 7 (R38), 0 for any other index. -/
def statAt (t : Stats) (k : Nat) : Word :=
  match k with
  | 0 => t.garbage
  | 1 => t.frameErrors
  | 2 => t.rxFrames
  | 3 => t.fifoDrops
  | 4 => t.shed
  | 5 => t.txFrames
  | 6 => t.timeouts
  | 7 => t.noAnswer
  | _ => 0

/-- Milliseconds from `t0` to `now`, modulo 2^32 (00_scope.md R18). -/
def elapsed (now t0 : Word) : Nat := (now - t0).toNat

/-- A duration "has elapsed" (R19): `>=`. -/
def hasElapsed (now t0 : Word) (d : Nat) : Bool := decide (d ≤ elapsed now t0)

/-- A timeout "has passed" (R19): `>`. -/
def hasPassed (now t0 : Word) (d : Nat) : Bool := decide (d < elapsed now t0)

/-- The interrupt output IRQ, a level (60_exceptions.md R162). -/
def irq (s : State) : Bool :=
  (s.eng.callout != .none && s.ie.getLsbD 0) || (s.warn != 0 && s.ie.getLsbD 1)

end Sys2Proof.Machine
end

