-- ==== Sys2Proof/Machine/Ops.lean ====
section
/-! DEFINITION. The operations that several rules share: the completion of a command, the queues of
40_ring_fifo.md, the transmit primitive, and the callout with its return. -/

namespace Sys2Proof.Machine

/-! ### Completion of a command (60_exceptions.md R153) -/

/-- A command completes: CMD_STATUS <- 0. -/
def cmdOk (s : State) : State := { s with cmdStatus := .ok }

/-- A command fails with a command error: CMD_STATUS <- code, WARN[6] <- 1, nothing else (R153, 00_scope.md R15). -/
def cmdFail (c : CmdCode) (s : State) : State := setWarn warnCmdErr { s with cmdStatus := c }

/-! ### Receive ring buffer RB (40_ring_fifo.md section 1) -/

/-- R77 -/
def rbSize (s : State) : Nat := s.rb.length

/-- R77 -/
def rbFree (s : State) : Nat := rbCapEff s.params - s.rb.length

/-- R78: the answer is 0 when RB is full. -/
def rbPush (x : Byte) (s : State) : Nat × State :=
  if s.rb.length = rbCapEff s.params then (0, s) else (1, { s with rb := s.rb ++ [x] })

/-- R79: the number of bytes stored, and the state. -/
def rbPushSlice (bs : List Byte) (s : State) : Nat × State :=
  let k := min bs.length (rbFree s)
  (k, { s with rb := s.rb ++ bs.take k })

/-- R80: the bytes popped, their number, and the state. -/
def rbPop (n : Nat) (s : State) : List Byte × Nat × State :=
  let k := min n s.rb.length
  (s.rb.take k, k, { s with rb := s.rb.drop k })

/-- R81: RB[i], or the internal fault RB_PEEK_RANGE (log 10). -/
def rbPeek (i : Nat) (s : State) : Except Fault Byte :=
  match s.rb[i]? with
  | some x => .ok x
  | none => .error .rbPeekRange

/-- R82: the number of bytes dropped, and the state. -/
def rbDrop (n : Nat) (s : State) : Nat × State :=
  let k := min n s.rb.length
  (k, { s with rb := s.rb.drop k })

/-- R83 -/
def rbReserve (want : Nat) (s : State) : Nat := min want (rbFree s)

/-- R84 -/
def rbClear (s : State) : State := { s with rb := [] }

/-! ### Frame FIFO (section 2) -/

/-- R85 -/
def fifoAvailable (s : State) : Nat := s.fifo.length

/-- R86: a full FIFO loses its oldest frame. -/
def fifoPush (f : RxFrame) (s : State) : State :=
  let s := if s.fifo.length = s.params.fifoCap then
      setWarn warnFifoOverflow (addFifoDrop { s with fifo := s.fifo.drop 1 })
    else s
  { s with fifo := s.fifo ++ [f] }

/-- R87: `none` is the answer false of an empty FIFO. -/
def fifoPop (s : State) : Option RxFrame × State :=
  match s.fifo with
  | [] => (none, s)
  | f :: rest => (some f, { s with fifo := rest })

/-- R88 -/
def fifoDrop (n : Nat) (s : State) : Nat × State :=
  let k := min n s.fifo.length
  (k, { s with fifo := s.fifo.drop k })

/-! ### Outgoing queue OQ (section 3) -/

/-- R89 -/
def oqEnqueue (item : OutItem) (s : State) : Bool × State :=
  if s.oq.length = s.params.oqCap then (false, s) else (true, { s with oq := s.oq ++ [item] })

/-- R90 -/
def oqPop (s : State) : State := { s with oq := s.oq.drop 1 }

/-- R91: one less retry for the head, a u8; nothing to do on an empty OQ (log 9). -/
def oqDecHead (s : State) : State :=
  match s.oq with
  | [] => s
  | h :: rest => { s with oq := { h with retries := h.retries - 1 } :: rest }

/-! ### Transmit primitive (45_system.md R151) -/

/-- R151 -/
def txWrite (bs : List Byte) (s : State) : State := { s with txLine := s.txLine ++ bs }

/-! ### Callouts, the block's traps (60_exceptions.md section 3) -/

/-- R157: save the event record and hold the sequencer. EVT.data is padded with zeros to 256 bytes. -/
def postCallout (kind : Callout) (reqType ftype : Byte) (useCrc : Bool) (data : List Byte) (time : Word)
    (s : State) : State :=
  { s with
    evt := { kind := kind, reqType := reqType, ftype := ftype, useCrc := useCrc,
             len := BitVec.ofNat 8 data.length, time := time,
             data := data ++ List.replicate (256 - data.length) 0 }
    eng := { s.eng with callout := kind } }

/-- What the return from a MESSAGE callout does first (44_sequencer.md R132): the no-answer warning. -/
def noAnswerCheck (s : State) : State :=
  if s.eng.answerSent = false ∧ s.eng.noAnswer = false then setWarn warnNoAnswer (addNoAnswer s) else s

/-- R159 and 44_sequencer.md R132 between its first test and its last line: the return from a held callout. -/
def calloutReturn (res : HandlerResult) (s : State) : State :=
  let s := { s with hresult := res }
  let s := if res = .ok then s else setWarn warnHandlerErr s
  let s := match s.eng.callout with
    | .none => s
    | .message =>
      let s := noAnswerCheck s
      { s with eng := { s.eng with processing := false } }
    | .answer =>
      let s := oqPop s
      { s with eng := { s.eng with state := .idle } }
    | .timeout => { s with eng := { s.eng with state := .idle } }
  { s with eng := { s.eng with callout := .none } }

end Sys2Proof.Machine
end

