-- ==== Sys2Proof/Machine/Crc.lean ====
section
/-! DEFINITION. CRC-16/ARC and the additive checksum (41_crc_checksum.md), and the four commands that drive
CRC_ACC and CHK_ACC. -/

namespace Sys2Proof.Machine

/-- R92: the sum of the bytes modulo 256, from `init`. -/
def checksum (s : List Byte) (init : Byte) : Byte := s.foldl (· + ·) init

/-- One of the eight shifts of R93. -/
def crcShift (c : Half) : Half := if c.getLsbD 0 then (c >>> 1) ^^^ 0xA001 else c >>> 1

/-- R93: one byte of the CRC-16 with reflected polynomial 0xA001 (log 14). -/
def crc16Byte (c : Half) (b : Byte) : Half := Nat.iterate crcShift 8 (c ^^^ b.setWidth 16)

/-- R94: the table of the table-driven form. -/
def crcTable (i : Byte) : Half := crc16Byte 0 i

/-- R94: one byte of the CRC-16 by table. -/
def crc16ByteTable (c : Half) (b : Byte) : Half := (c >>> 8) ^^^ crcTable ((c ^^^ b.setWidth 16).setWidth 8)

/-- R95: the CRC-16 of a byte sequence from `init`; no final XOR. -/
def crc16 (s : List Byte) (init : Half) : Half := s.foldl crc16Byte init

/-- R97: the checksum byte of a covered range, with one POST value for each covered separator. -/
def frameChecksum (v : List Byte) : Byte := checksum v 0 + post * BitVec.ofNat 8 (v.count sep)

/-- R98: the CRC of a covered range as it is sent, high byte first (20_memory.md R45). -/
def frameCrcBytes (v : List Byte) : List Byte :=
  let c := crc16 v 0
  [c.extractLsb' 8 8, c.extractLsb' 0 8]

/-- CRC_INIT h (R99) -/
def execCrcInit (h : Half) (s : State) : Host.Outcome State Fault Refusal :=
  .next (cmdOk { s with crcAcc := h })

/-- CRC_FEED b (R100) -/
def execCrcFeed (b : Byte) (s : State) : Host.Outcome State Fault Refusal :=
  .next (cmdOk { s with crcAcc := crc16Byte s.crcAcc b })

/-- CHK_INIT b (R101) -/
def execChkInit (b : Byte) (s : State) : Host.Outcome State Fault Refusal :=
  .next (cmdOk { s with chkAcc := b })

/-- CHK_FEED b (R102): the escape fold of R97 is not applied. -/
def execChkFeed (b : Byte) (s : State) : Host.Outcome State Fault Refusal :=
  .next (cmdOk { s with chkAcc := s.chkAcc + b })

end Sys2Proof.Machine
end

