-- ==== Sys2Proof/Machine/Codec.lean ====
section
/-! DEFINITION. The frame codec (42_frame_codec.md) over the wire format of 30_encoding.md section 3: encoder,
two-stage parser, message serialisation. -/

namespace Sys2Proof.Machine

/-- The status of a Frame (R103). -/
inductive FrameStatus where
  | empty
  | headerOnly
  | complete
deriving DecidableEq, Repr

/-- A Frame (R103); its checksum and CRC are computed, not stored. -/
structure Frame where
  ftype : Byte
  useCrc : Bool
  data : List Byte
  status : FrameStatus
deriving DecidableEq, Repr

/-- The fields a parsed header gives (R109). -/
structure Header where
  ftype : Byte
  useCrc : Bool
  dataLen : Byte
deriving DecidableEq, Repr

/-- A Frame built for sending (R103): Complete at once. -/
def Frame.forSending (ft : Byte) (d : List Byte) (c : Bool) : Frame :=
  { ftype := ft, useCrc := c, data := d, status := .complete }

/-- R111: back to Empty, the data released. -/
def Frame.reset (f : Frame) : Frame := { f with data := [], status := .empty }

/-- R104: logical byte `pos` of a header, for data length `n`. -/
def headerByte (pos n : Nat) (c : Bool) (ft : Byte) : Byte :=
  match pos with
  | 0 => sep
  | 1 => sep
  | 2 => BitVec.ofNat 8 (8 + n)
  | 3 => if c then crcFlag else 0
  | 9 => ft
  | _ => 0

/-- The ten header bytes, positions 0 to 9 (30_encoding.md R64). -/
def headerBytes (n : Nat) (c : Bool) (ft : Byte) : List Byte := (List.range 10).map (headerByte · n c ft)

/-- The covered range of a frame to send: positions 2 to 9 + n (30_encoding.md R68). -/
def coveredRange (ft : Byte) (d : List Byte) (c : Bool) : List Byte := (headerBytes d.length c ft).drop 2 ++ d

/-- R105: the logical frame of 30_encoding.md R64. -/
def logicalFrame (ft : Byte) (d : List Byte) (c : Bool) : List Byte :=
  let v := coveredRange ft d c
  headerBytes d.length c ft ++ d ++ [frameChecksum v] ++ (if c then frameCrcBytes v else [])

/-- `stuff(b)` (30_encoding.md R69). -/
def stuff (b : Byte) : List Byte := if b = sep then [sep, post] else [b]

/-- The physical form of a logical frame (30_encoding.md R69): the two separators bare, every later byte stuffed. -/
def physical (l : List Byte) : List Byte := [sep, sep] ++ (l.drop 2).flatMap stuff

/-- R106: logical length plus the number of escapes. -/
def bufferSize (ft : Byte) (d : List Byte) (c : Bool) : Nat :=
  let l := logicalFrame ft d c
  l.length + (l.drop 2).count sep

/-- R107: the physical frame and its length, or (0, []) when it does not fit in `limit` bytes. -/
def fillBuffer (ft : Byte) (d : List Byte) (c : Bool) (limit : Nat) : Nat × List Byte :=
  if limit < bufferSize ft d c then (0, [])
  else
    let p := physical (logicalFrame ft d c)
    (p.length, p)

/-- R108: transmit a frame at once; the answer 0 is the verdict FRAME_TOO_BIG, with nothing written. -/
def sendData (ft : Byte) (d : List Byte) (c : Bool) (s : State) : Nat × State :=
  if maxDataSize s.params < d.length then (0, s)
  else
    let kp := fillBuffer ft d c (bufferSize ft d c)
    (kp.1, addTxFrame (txWrite kp.2 s))

/-- R109: the first stage of the parser, over the logical bytes of the attempt. -/
def parseHeader (p : Params) (a : List Byte) (status : FrameStatus) : Except FrameError Header :=
  if status ≠ .empty then .error .unknownData
  else if a.length < 10 then .error .frameTooSmall
  else if byteAt a 0 ≠ sep ∨ byteAt a 1 ≠ sep then .error .separatorWrong
  else
    let size := byteAt a 2
    if size.toNat < 8 then .error .headerTooSmall
    else if p.maxFrameSize < size.toNat then .error .headerTooBig
    else .ok { ftype := byteAt a 9, useCrc := (byteAt a 3).getLsbD 6, dataLen := size - 8 }

/-- The logical bytes after the data of a frame: the checksum, and with CRC its two bytes (30_encoding.md R64). -/
def trailerLen (c : Bool) : Nat := if c then 3 else 1

/-- The covered range of a received attempt with `n` data bytes (R110). -/
def coveredOf (a : List Byte) (n : Nat) : List Byte := (a.take (10 + n)).drop 2

/-- R110: the second stage of the parser; the CRC is tested before the checksum. -/
def parseBody (a : List Byte) (hdr : Header) (esc : Byte) (status : FrameStatus) : Except FrameError Frame :=
  let n := hdr.dataLen.toNat
  let v := coveredOf a n
  if status ≠ .headerOnly then .error .unknownData
  else if a.length < 10 + n + trailerLen hdr.useCrc then .error .dataSizeWrong
  else if hdr.useCrc ∧ crc16 v 0 ≠ byteAt a (11 + n) ++ byteAt a (12 + n) then .error .crcWrong
  else if checksum v 0 + post * esc ≠ byteAt a (10 + n) then .error .checksumWrong
  else .ok { ftype := hdr.ftype, useCrc := hdr.useCrc, data := (a.take (10 + n)).drop 10, status := .complete }

/-- R112 (30_encoding.md R72): a nonzero subcommand first, big-endian. -/
def serialize (subcmd : Half) (payload : List Byte) : List Byte :=
  (if subcmd ≠ 0 then [subcmd.extractLsb' 8 8, subcmd.extractLsb' 0 8] else []) ++ payload

end Sys2Proof.Machine
end

