-- ==== Sys2Proof/Machine/Scanner.lean ====
section
/-! DEFINITION. The frame scanner (43_frame_scanner.md), which runs only inside LOOP. -/

namespace Sys2Proof.Machine

/-- R114: take what the line offers up to the free space of RB. -/
def readData (s : State) : State :=
  let k := rbReserve s.rxLine.length s
  let s' := (rbPushSlice (s.rxLine.take k) s).2
  { s' with rxLine := s.rxLine.drop k }

/-- R125 -/
def resetSync (s : State) : State := { s with scn := Scanner.idle }

/-- R124: drop the bytes accepted into the attempt and record the frame error. -/
def abort (e : FrameError) (s : State) : State :=
  let s := (rbDrop s.scn.consumed s).2
  let s := { s with frameErr := e }
  resetSync (setWarn warnFrameErr (addFrameError s))

/-- R116: the stale-frame timeout of an open attempt. -/
def staleCheck (now : Word) (s : State) : State :=
  if s.scn.phase ≠ .sync ∧ hasPassed now s.scn.start s.params.frameTimeoutMs = true then abort .frameTimeout s else s

/-- R117 on the bytes from position `i` on: how many of them are garbage, and whether a start follows. -/
def syncSearch : List Byte → Nat × Bool
  | [] => (0, false)
  | b :: rest =>
    let later := (fun r : Nat × Bool => (r.1 + 1, r.2)) (syncSearch rest)
    if 2 ≤ rest.length then
      if b = sep ∧ byteAt rest 0 = sep ∧ byteAt rest 1 ≠ sep then (0, true) else later
    else if (b :: rest).all (· == sep) then (0, false)
    else later

/-- The garbage drop of R115: `i` bytes before the start, if any. -/
def dropGarbage (i : Nat) (s : State) : State :=
  if 0 < i then setWarn warnGarbage (addGarbage i (rbDrop i s).2) else s

/-- R119 -/
def lock (now : Word) (s : State) : State :=
  { s with scn := { phase := .header, consumed := 2, asm := [sep, sep], esc := 0, start := now,
                    useCrc := false, ftype := 0, dataLen := 0 } }

/-- The answers of R120. -/
inductive Logical where
  | needMore
  | violation
  | byte (b : Byte) (escaped : Bool)
deriving DecidableEq, Repr

/-- R120: the next logical byte of the attempt. -/
def nextLogical (s : State) : Except Fault Logical :=
  let j := s.scn.consumed
  if rbSize s ≤ j then .ok .needMore
  else
    match rbPeek j s with
    | .error f => .error f
    | .ok x =>
      if x ≠ sep then .ok (.byte x false)
      else if rbSize s ≤ j + 1 then .ok .needMore
      else
        match rbPeek (j + 1) s with
        | .error f => .error f
        | .ok y => if y = post then .ok (.byte sep true) else .ok .violation

/-- R122: the tenth logical byte has come. -/
def headerDone (s : State) : State :=
  match parseHeader s.params s.scn.asm .empty with
  | .error e => abort e s
  | .ok h => { s with scn := { s.scn with phase := .body, ftype := h.ftype, useCrc := h.useCrc, dataLen := h.dataLen } }

/-- R123: the last logical byte has come. -/
def bodyDone (now : Word) (s : State) : State :=
  match parseBody s.scn.asm { ftype := s.scn.ftype, useCrc := s.scn.useCrc, dataLen := s.scn.dataLen } s.scn.esc
      .headerOnly with
  | .error e => abort e s
  | .ok f =>
    let s := (rbDrop s.scn.consumed s).2
    let s := fifoPush { ftype := f.ftype, useCrc := f.useCrc, data := f.data, arrival := now } s
    resetSync (addRxFrame s)

/-- The part of R121 before its last `if`: the byte joins the attempt, and an escape of a covered byte is counted. -/
def acceptByte (b : Byte) (escaped : Bool) (c : Scanner) : Scanner :=
  let p := c.asm.length
  { c with
    asm := c.asm ++ [b]
    consumed := c.consumed + (if escaped then 2 else 1)
    esc := if escaped = true ∧ 2 ≤ p ∧ (c.phase = .header ∨ p < 10 + c.dataLen.toNat) then c.esc + 1 else c.esc }

/-- The last `if` of R121: the header or the body is finished by its last byte. -/
def finishPart (now : Word) (s : State) : State :=
  if s.scn.phase = .header ∧ s.scn.asm.length = 10 then headerDone s
  else if s.scn.phase = .body ∧ s.scn.asm.length = 10 + s.scn.dataLen.toNat + trailerLen s.scn.useCrc then
    bodyDone now s
  else s

/-- R121: accept a logical byte, and finish the header or the body when it was the last. -/
def accept (now : Word) (b : Byte) (escaped : Bool) (s : State) : State :=
  finishPart now { s with scn := acceptByte b escaped s.scn }

/-- Where one pass of R115's loop leaves: it returns, or the loop goes on. -/
inductive Pass where
  | done (s : State)
  | again (s : State)

/-- One pass of R115's loop. -/
def scanPass (now : Word) (s : State) : Except Fault Pass :=
  match s.scn.phase with
  | .sync =>
    let found := syncSearch s.rb
    let s := dropGarbage found.1 s
    if found.2 then .ok (.again (lock now s)) else .ok (.done s)
  | .header | .body =>
    match nextLogical s with
    | .error f => .error f
    | .ok .needMore => .ok (.done s)
    | .ok .violation => .ok (.again (abort .wrongPostByte s))
    | .ok (.byte b e) => .ok (.again (accept now b e s))

/-- R115's loop, at most `fuel` passes. -/
def scanLoop (now : Word) : Nat → State → Except Fault State
  | 0, s => .ok s
  | fuel + 1, s =>
    match scanPass now s with
    | .error f => .error f
    | .ok (.done s') => .ok s'
    | .ok (.again s') => scanLoop now fuel s'

/-- Passes that suffice for R115's loop: each continuing pass lowers `2 |RB|` by the bytes it accepts or drops (log 11). -/
def scanFuel (s : State) : Nat := 2 * s.rb.length + 3

/-- R115's loop. -/
def scan (now : Word) (s : State) : Except Fault State := scanLoop now (scanFuel s) s

/-- R115 -/
def processData (now : Word) (s : State) : Except Fault State := scan now (staleCheck now s)

end Sys2Proof.Machine
end

