-- ==== Sys2Proof/Machine/Sequencer.lean ====
section
/-! DEFINITION. The request/response sequencer (44_sequencer.md): LOOP with its idle and waiting steps, the handler
return, and the transmit commands. -/

namespace Sys2Proof.Machine

/-- R130: send the head `h` of OQ. -/
def sendHead (now : Word) (h : OutItem) (s : State) : State :=
  let s := (sendData h.ftype h.data h.useCrc s).2
  let s := { s with eng := { s.eng with lastSend := now, coolArmed := true } }
  if h.expectsAnswer then
    let s := oqDecHead s
    { s with eng := { s.eng with state := .waiting, ansBase := now, retryBase := now,
                                 retryWait := h.retryInterval.setWidth 32 } }
  else
    let s := oqPop s
    { s with eng := { s.eng with retryBase := now, retryWait := 0 } }

/-- The two deadlines R129 tests before a send: the cooldown, once armed, and the retry interval. -/
def maySend (now : Word) (s : State) : Bool :=
  (!s.eng.coolArmed || hasElapsed now s.eng.lastSend s.params.cooldownMs)
    && hasElapsed now s.eng.retryBase s.eng.retryWait.toNat

/-- R129, overload shedding: with two or more frames queued all but the newest are dropped. -/
def shed (s : State) : State :=
  let k := fifoAvailable s
  if 2 ≤ k then setWarn warnShed (addShed (k - 1) (fifoDrop (k - 1) s).2) else s

/-- R129 and 60_exceptions.md R158: dispatch a frame as a MESSAGE callout. -/
def dispatchMessage (f : RxFrame) (s : State) : State :=
  let s := { s with eng := { s.eng with inUseCrc := f.useCrc, processing := true, answerSent := false, noAnswer := false } }
  postCallout .message 0 f.ftype f.useCrc f.data f.arrival s

/-- R129: at most one of a dispatch and a send. -/
def idleStep (now : Word) (s : State) : State :=
  match fifoPop (shed s) with
  | (some f, s) => dispatchMessage f s
  | (none, s) =>
    match s.oq with
    | [] => s
    | h :: _ => if maySend now s then sendHead now h s else s

/-- R131: the answer timeout first, then an answer. OQ.head of an empty OQ is the fault of log 8. -/
def waitingStep (now : Word) (s : State) : Except Fault State :=
  match s.oq with
  | [] => .error .noOutstandingRequest
  | h :: _ =>
    if hasPassed now s.eng.ansBase s.params.answerTimeoutMs then
      if h.retries = 0 then
        .ok (postCallout .timeout h.ftype 0 h.useCrc [] now (addTimeout (oqPop s)))
      else .ok { s with eng := { s.eng with state := .idle } }
    else
      match fifoPop s with
      | (some f, s) => .ok (postCallout .answer h.ftype f.ftype f.useCrc f.data f.arrival s)
      | (none, s) => .ok s

/-- The state step of LOOP (R128): exactly one of R129 and R131, by the ENG.state that LOOP found. -/
def engineStep (now : Word) (s : State) : Except Fault State :=
  match s.eng.state with
  | .idle => .ok (idleStep now s)
  | .waiting => waitingStep now s

/-- LOOP past its test of ENG.callout (R128): read, scan, one state step. The line is read before the scan's stale check,
as R128 and R115 have it; R160's list has the two the other way round (DEDUCED, log 18). -/
def loopBody (now : Word) (s : State) : Except Fault State :=
  match processData now (readData s) with
  | .error f => .error f
  | .ok s => engineStep now s

/-- LOOP (R128); `now` is TIME throughout (45_system.md R145). -/
def execLoop (s : State) : Host.Outcome State Fault Refusal :=
  if s.eng.callout ≠ .none then .next (cmdFail .busyInCallout s)
  else
    match loopBody s.time s with
    | .error f => .fault f
    | .ok s => .next (cmdOk s)

/-- HANDLER_RETURN res (R132) -/
def execHandlerReturn (res : HandlerResult) (s : State) : Host.Outcome State Fault Refusal :=
  if s.eng.callout = .none then .next (cmdFail .notInCallout s) else .next (cmdOk (calloutReturn res s))

/-- What SEND_MESSAGE and SEND_MESSAGE_NA do with their queue item: OVERSIZE first, then QUEUE_FULL (R133, R134). -/
def enqueueItem (item : OutItem) (s : State) : State :=
  if maxDataSize s.params < item.data.length then cmdFail .oversize s
  else
    match oqEnqueue item s with
    | (true, s) => cmdOk s
    | (false, s) => cmdFail .queueFull s

/-- The staged Message, serialised (42_frame_codec.md R112). -/
def stagedData (s : State) : List Byte := serialize s.stg.subcmd s.stg.data

/-- SEND_MESSAGE ft, c, r (R133) -/
def execSendMessage (ft : Byte) (c : Bool) (r : Byte) (s : State) : Host.Outcome State Fault Refusal :=
  .next (enqueueItem { ftype := ft, data := stagedData s, useCrc := c, expectsAnswer := true,
                       retries := retryCount s.params r, retryInterval := s.stg.retry } s)

/-- SEND_MESSAGE_NA ft, c (R134) -/
def execSendMessageNa (ft : Byte) (c : Bool) (s : State) : Host.Outcome State Fault Refusal :=
  .next (enqueueItem { ftype := ft, data := stagedData s, useCrc := c, expectsAnswer := false,
                       retries := 1, retryInterval := 0 } s)

/-- SEND_ANSWER ft, m (R135): NOT_IN_HANDLER, then BAD_OPERAND, then OVERSIZE; else written at once. -/
def execSendAnswer (ft : Byte) (m : CrcMode) (s : State) : Host.Outcome State Fault Refusal :=
  if s.eng.processing = false then .next (cmdFail .notInHandler s)
  else if m = .reserved then .next (cmdFail .badOperand s)
  else if maxDataSize s.params < (stagedData s).length then .next (cmdFail .oversize s)
  else
    let now := s.time
    let s := (sendData ft (stagedData s) (answerCrc m s.eng.inUseCrc) s).2
    .next (cmdOk { s with eng := { s.eng with answerSent := true, lastSend := now, coolArmed := true } })

/-- NO_ANSWER (R136) -/
def execNoAnswer (s : State) : Host.Outcome State Fault Refusal :=
  if s.eng.processing = false then .next (cmdFail .notInHandler s)
  else .next (cmdOk { s with eng := { s.eng with noAnswer := true } })

end Sys2Proof.Machine
end

