-- ==== Sys2Proof/Machine/Staging.lean ====
section
/-! DEFINITION. The staging commands (44_sequencer.md section 4). -/

namespace Sys2Proof.Machine

/-- STAGE_CLEAR (R137): STG.retry is kept. -/
def execStageClear (s : State) : Host.Outcome State Fault Refusal :=
  .next (cmdOk { s with stg := { s.stg with data := [], subcmd := 0 } })

/-- STAGE_PUSH b (R138) -/
def execStagePush (b : Byte) (s : State) : Host.Outcome State Fault Refusal :=
  if s.stg.data.length = maxDataSize s.params then .next (cmdFail .stageFull s)
  else .next (cmdOk { s with stg := { s.stg with data := s.stg.data ++ [b] } })

/-- STAGE_SUBCMD h (R139) -/
def execStageSubcmd (h : Half) (s : State) : Host.Outcome State Fault Refusal :=
  .next (cmdOk { s with stg := { s.stg with subcmd := h } })

/-- STAGE_RETRY t (R140) -/
def execStageRetry (t : U24) (s : State) : Host.Outcome State Fault Refusal :=
  .next (cmdOk { s with stg := { s.stg with retry := t } })

end Sys2Proof.Machine
end

