-- ==== Sys2Proof/Machine/System.lean ====
section
/-! DEFINITION. Instantiation with its parameter check (00_scope.md R7), NOP (45_system.md R146) and RESET
(70_reset_and_hazards.md R170). -/

namespace Sys2Proof.Machine

/-- An instance with parameters `p` at power-on (R169), or the refusal of a configuration that R7 excludes. -/
def instantiate (p : Params) : Host.Outcome State Fault Refusal :=
  if p.Legal then .next (State.powerOn p) else .refused .illegalParams

/-- What RESET does to the state (R170): every element but TIME, RX_LINE and TX_LINE at its reset value (R171).
The parameters are not state of the block and stay, as do the model's own records of its surroundings. -/
def resetState (s : State) : State :=
  { State.powerOn s.params with
    time := s.time, rxLine := s.rxLine, txLine := s.txLine, pending := s.pending, hostReads := s.hostReads }

/-- NOP (R146) -/
def execNop (s : State) : Host.Outcome State Fault Refusal := .next (cmdOk s)

/-- RESET (R170) -/
def execReset (s : State) : Host.Outcome State Fault Refusal := .next (cmdOk (resetState s))

end Sys2Proof.Machine
end

