-- ==== Sys2Proof/Machine/Dispatch.lean ====
section
/-! DEFINITION. One arm per command of 30_encoding.md R61, each one call of its meaning. -/

namespace Sys2Proof.Machine

def exec (i : Instr) (s : State) : Host.Outcome State Fault Refusal :=
  match i with
  -- 45_system.md, 70_reset_and_hazards.md
  | .nop => Sys2Proof.Machine.execNop s
  | .reset => Sys2Proof.Machine.execReset s
  | .loop => Sys2Proof.Machine.execLoop s
  -- 41_crc_checksum.md
  | .crcInit h => Sys2Proof.Machine.execCrcInit h s
  | .crcFeed b => Sys2Proof.Machine.execCrcFeed b s
  | .chkInit b => Sys2Proof.Machine.execChkInit b s
  | .chkFeed b => Sys2Proof.Machine.execChkFeed b s
  -- 44_sequencer.md
  | .stageClear => Sys2Proof.Machine.execStageClear s
  | .stagePush b => Sys2Proof.Machine.execStagePush b s
  | .stageSubcmd h => Sys2Proof.Machine.execStageSubcmd h s
  | .stageRetry t => Sys2Proof.Machine.execStageRetry t s
  | .sendMessage ft c r => Sys2Proof.Machine.execSendMessage ft c r s
  | .sendMessageNa ft c => Sys2Proof.Machine.execSendMessageNa ft c s
  | .sendAnswer ft m => Sys2Proof.Machine.execSendAnswer ft m s
  | .noAnswer => Sys2Proof.Machine.execNoAnswer s
  | .handlerReturn res => Sys2Proof.Machine.execHandlerReturn res s

end Sys2Proof.Machine
end

