-- ==== Sys2Proof/Machine/Registers.lean ====
section
/-! DEFINITION. The register map as a host reads it (10_state.md R41, 45_system.md R147). -/

namespace Sys2Proof.Machine

/-- ID, hard-wired: "HAER" (00_scope.md R2). -/
def idValue : Word := 0x48414552

/-- STATE (0x00C); IRQ is bit 10. -/
def regState (s : State) : Word :=
  fieldAt 0 (engStateBit s.eng.state) ||| fieldAt 1 (calloutBits s.eng.callout)
    ||| fieldAt 3 (BitVec.ofBool s.eng.processing) ||| fieldAt 4 (BitVec.ofBool s.eng.answerSent)
    ||| fieldAt 5 (BitVec.ofBool s.eng.noAnswer) ||| fieldAt 6 (BitVec.ofBool s.eng.inUseCrc)
    ||| fieldAt 7 (BitVec.ofBool s.eng.coolArmed) ||| fieldAt 8 (phaseBits s.scn.phase)
    ||| fieldAt 10 (BitVec.ofBool (irq s))

/-- LEVELS (0x028) -/
def regLevels (s : State) : Word :=
  fieldAt 0 (BitVec.ofNat 8 s.fifo.length) ||| fieldAt 8 (BitVec.ofNat 8 s.oq.length)
    ||| fieldAt 16 (BitVec.ofNat 16 s.rb.length)

/-- SCN_INFO (0x02C) -/
def regScnInfo (s : State) : Word :=
  fieldAt 0 (BitVec.ofNat 16 s.scn.consumed) ||| fieldAt 16 (BitVec.ofNat 9 s.scn.asm.length)

/-- SCN_HDR (0x030) -/
def regScnHdr (s : State) : Word :=
  fieldAt 0 s.scn.ftype ||| fieldAt 8 s.scn.dataLen ||| fieldAt 16 (BitVec.ofBool s.scn.useCrc) ||| fieldAt 24 s.scn.esc

/-- STAGE_INFO (0x038) -/
def regStageInfo (s : State) : Word :=
  fieldAt 0 (BitVec.ofNat 8 s.stg.data.length) ||| fieldAt 16 s.stg.subcmd

/-- OQ_HEAD (0x044): all 0 if OQ is empty. -/
def regOqHead (s : State) : Word :=
  match s.oq with
  | [] => 0
  | h :: _ =>
    fieldAt 0 h.ftype ||| fieldAt 8 h.retries ||| fieldAt 16 (BitVec.ofBool h.expectsAnswer)
      ||| fieldAt 17 (BitVec.ofBool h.useCrc) ||| fieldAt 24 (BitVec.ofNat 8 h.data.length)

/-- EVT_DATA_k (0x100 + 4k): four bytes, little-endian (20_memory.md R46). -/
def regEvtData (k : Nat) (s : State) : Word :=
  fieldAt 0 (byteAt s.evt.data (4 * k)) ||| fieldAt 8 (byteAt s.evt.data (4 * k + 1))
    ||| fieldAt 16 (byteAt s.evt.data (4 * k + 2)) ||| fieldAt 24 (byteAt s.evt.data (4 * k + 3))

/-- The register at an aligned offset below 4096; 0 at the offsets R41 does not list. -/
def readReg (a : Nat) (s : State) : Word :=
  match a with
  | 0x000 => idValue
  | 0x004 => 0
  | 0x008 => fieldAt 0 (cmdCodeBits s.cmdStatus)
  | 0x00C => regState s
  | 0x010 => fieldAt 0 s.warn
  | 0x014 => fieldAt 0 s.ie
  | 0x018 => s.time
  | 0x01C => fieldAt 0 s.crcAcc
  | 0x020 => fieldAt 0 s.chkAcc
  | 0x024 => fieldAt 0 (frameErrorBits s.frameErr)
  | 0x028 => regLevels s
  | 0x02C => regScnInfo s
  | 0x030 => regScnHdr s
  | 0x034 => s.scn.start
  | 0x038 => regStageInfo s
  | 0x03C => fieldAt 0 s.stg.retry
  | 0x040 => fieldAt 0 s.hresult.code
  | 0x044 => regOqHead s
  | 0x048 => s.eng.lastSend
  | 0x04C => s.eng.ansBase
  | 0x050 => s.eng.retryBase
  | 0x054 => s.eng.retryWait
  | 0x080 => fieldAt 0 (calloutBits s.evt.kind)
  | 0x084 => fieldAt 0 s.evt.reqType
  | 0x088 => fieldAt 0 s.evt.ftype
  | 0x08C => fieldAt 0 (BitVec.ofBool s.evt.useCrc)
  | 0x090 => fieldAt 0 s.evt.len
  | 0x094 => s.evt.time
  | a =>
    if 0x060 ≤ a ∧ a < 0x080 ∧ a % 4 = 0 then statAt s.stat ((a - 0x060) / 4)
    else if 0x100 ≤ a ∧ a < 0x200 ∧ a % 4 = 0 then regEvtData ((a - 0x100) / 4) s
    else 0

/-- MemRead(off, 4) (R147): the value of the register; reading changes nothing (20_memory.md R49). -/
def memRead (off : Nat) (s : State) : Word := readReg (regOffset off) s

end Sys2Proof.Machine
end

