-- ==== Sys2Proof/Machine/Bus.lean ====
section
/-! DEFINITION. The atomic steps of the agents (45_system.md): the execution of a command word, the host's register
accesses, a byte arriving, a tick. -/

namespace Sys2Proof.Machine

/-- `execute(W)` (R145): a word whose opcode is not in the map fails with ILLEGAL_OPCODE (30_encoding.md R62). -/
def execute (w : Word) (s : State) : Host.Outcome State Fault Refusal :=
  match decode w with
  | .error (.illegalOpcode _) => .next (cmdFail .illegalOpcode s)
  | .ok i => exec i s

/-- MemWrite(off, 4, v) (R148): a command, a RW1C write to WARN, a write to IE, or no effect. -/
def memWrite (off : Nat) (v : Word) (s : State) : Host.Outcome State Fault Refusal :=
  match regOffset off with
  | 0x004 => execute v s
  | 0x010 => .next { s with warn := s.warn &&& ~~~(v.extractLsb' 0 7) }
  | 0x014 => .next { s with ie := v.extractLsb' 0 2 }
  | _ => .next s

/-- A host read step (R147): the value goes to the host, which `hostReads` stands for (log 5). -/
def hostRead (off : Nat) (s : State) : State := { s with hostReads := s.hostReads ++ [memRead off s] }

/-- RxArrive(x) (R149) -/
def rxArrive (x : Byte) (s : State) : State := { s with rxLine := s.rxLine ++ [x] }

/-- Tick() (R150) -/
def tick (s : State) : State := { s with time := s.time + 1 }

/-- One atomic step of an agent (20_memory.md R52). -/
def perform (e : AgentStep) (s : State) : Host.Outcome State Fault Refusal :=
  match e with
  | .hostRead addr => .next (hostRead (windowOffset s.params addr) s)
  | .hostWrite addr v => memWrite (windowOffset s.params addr) v s
  | .rxArrive x => .next (rxArrive x s)
  | .tick => .next (tick s)

end Sys2Proof.Machine
end

