-- ==== Sys2Proof/Machine/Step.lean ====
section
/-! DEFINITION. One step of the machine: the next atomic step of an agent, taken from the front of `pending`. -/

namespace Sys2Proof.Machine

/-- The next step of the total order (20_memory.md R52). With no agent about to move the block does nothing
(60_exceptions.md R168), and the state stays (log 4). -/
def step (s : State) : Host.Outcome State Fault Refusal :=
  match s.pending with
  | [] => .next s
  | e :: rest => perform e { s with pending := rest }

/-- `s` with the host about to write the command word `w` to CMD: a command is not fetched, it runs when the host
writes it (10_state.md R26), so this one pending step is all that the fetch needs (log 4). -/
def State.withFetchWord (s : State) (nbits w : Nat) : State :=
  { s with pending := .hostWrite (s.params.windowBase + 4) (BitVec.ofNat 32 (w % 2 ^ nbits)) :: s.pending }

end Sys2Proof.Machine
end

