-- ==== Sys2Proof/Machine/Program.lean ====
section
/-! DEFINITION. The program syntax of 30_encoding.md section 4 as the agents' steps it stands for: commands, RD, WR,
RX, TICK (R74) and the pseudo-commands (R75). -/

namespace Sys2Proof.Machine

/-- A command: one write of its assembled word to CMD (R74). -/
def cmd (p : Params) (i : Instr) : AgentStep := .hostWrite (p.windowBase + 4) (encode i)

/-- `RD <register>` (R74), the register by its offset. -/
def rd (p : Params) (off : Word) : AgentStep := .hostRead (p.windowBase + off)

/-- `WR <register>, v` (R74) -/
def wr (p : Params) (off v : Word) : AgentStep := .hostWrite (p.windowBase + off) v

/-- `RX <bytes>` (R74): one line-receiver step per byte, in order. -/
def rx (bs : List Byte) : List AgentStep := bs.map .rxArrive

/-- `TICK k` (R74) -/
def tickSteps (k : Nat) : List AgentStep := List.replicate k .tick

/-- The pseudo-commands of R75. -/
inductive Pseudo where
  /-- CRC_BLOCK h, [b0..bk] -/
  | crcBlock (h : Half) (bs : List Byte)
  /-- CHK_BLOCK b, [b0..bk] -/
  | chkBlock (b : Byte) (bs : List Byte)
  /-- STAGE s, [b0..bk] -/
  | stage (s : Half) (bs : List Byte)
  /-- REQUEST ft, c, r, t, s, [b..] -/
  | request (ft : Byte) (c : Bool) (r : Byte) (t : U24) (s : Half) (bs : List Byte)
  /-- NOTIFY ft, c, s, [b..] -/
  | notify (ft : Byte) (c : Bool) (s : Half) (bs : List Byte)
  /-- ANSWER ft, m, s, [b..] -/
  | answer (ft : Byte) (m : CrcMode) (s : Half) (bs : List Byte)
  /-- CLEAR_WARN -/
  | clearWarn
deriving DecidableEq, Repr

/-- STAGE s, [b0..bk]: STAGE_SUBCMD is omitted when s = 0 (R75). -/
def stageCommands (s : Half) (bs : List Byte) : List Instr :=
  .stageClear :: ((if s = 0 then [] else [.stageSubcmd s]) ++ bs.map .stagePush)

/-- The commands a pseudo-command expands to (R75); CLEAR_WARN is no command but a register write. -/
def pseudoCommands : Pseudo → List Instr
  | .crcBlock h bs => .crcInit h :: bs.map .crcFeed
  | .chkBlock b bs => .chkInit b :: bs.map .chkFeed
  | .stage s bs => stageCommands s bs
  | .request ft c r t s bs => stageCommands s bs ++ [.stageRetry t, .sendMessage ft c r]
  | .notify ft c s bs => stageCommands s bs ++ [.sendMessageNa ft c]
  | .answer ft m s bs => stageCommands s bs ++ [.sendAnswer ft m]
  | .clearWarn => []

/-- The host steps a pseudo-command expands to (R75). -/
def expand (p : Params) : Pseudo → List AgentStep
  | .clearWarn => [wr p 0x010 0x7F]
  | q => (pseudoCommands q).map (cmd p)

end Sys2Proof.Machine
end

