-- ==== Sys2Proof/Safety.lean ====
section
/-! DEFINITION. What counts as a safe state: the bounds of 10_state.md section 4, the invariant of R27, and an attempt
that is the unstuffed front of RB. -/

namespace Sys2Proof.Machine

/-- The frame errors reachable from the line, and NONE (60_exceptions.md R155). -/
def FrameError.fromLine : FrameError → Bool
  | .none => true
  | .headerTooSmall => true
  | .headerTooBig => true
  | .checksumWrong => true
  | .crcWrong => true
  | .wrongPostByte => true
  | .frameTimeout => true
  | .separatorWrong => false
  | .frameTooSmall => false
  | .frameTooBig => false
  | .dataSizeWrong => false
  | .unknownData => false

/-- A queue item as SEND_MESSAGE and SEND_MESSAGE_NA make it (10_state.md R31, 44_sequencer.md R133, R134). -/
structure OutItem.Ok (p : Params) (i : OutItem) : Prop where
  data : i.data.length ≤ maxDataSize p
  retries : i.retries.toNat ≤ p.maxRetries + 1
  notification : i.expectsAnswer = false → i.retries = 1 ∧ i.retryInterval = 0

/-- An open attempt (10_state.md R29): the bytes of RB it has consumed are the physical form of its logical bytes,
the byte after the separators is no separator, and `esc` counts the separators of the covered range. -/
structure Attempt (rb : List Byte) (c : Scanner) : Prop where
  separators : c.asm.take 2 = [sep, sep]
  third : 3 ≤ rb.length ∧ byteAt rb 2 ≠ sep
  within : c.consumed ≤ rb.length
  unstuffed : rb.take c.consumed = physical c.asm
  escapes : c.esc = BitVec.ofNat 8 ((coveredOf c.asm c.dataLen.toNat).count sep)

/-- The scanner in each phase (R29). -/
def Scanner.Ok (p : Params) (rb : List Byte) (c : Scanner) : Prop :=
  match c.phase with
  | .sync => c = Scanner.idle
  | .header =>
    Attempt rb c ∧ c.asm.length < 10 ∧ c.useCrc = false ∧ c.ftype = 0 ∧ c.dataLen = 0
  | .body =>
    Attempt rb c ∧ 10 ≤ c.asm.length ∧ c.asm.length < 10 + c.dataLen.toNat + trailerLen c.useCrc ∧
    parseHeader p (c.asm.take 10) .empty = .ok { ftype := c.ftype, useCrc := c.useCrc, dataLen := c.dataLen }

/-- A request is outstanding: it was sent and is still the head of OQ (R27). -/
def Outstanding (s : State) : Prop := s.eng.state = .waiting ∧ s.eng.callout ≠ .timeout

/-- The invariant of the machine. -/
structure MachineInv (s : State) : Prop where
  /-- 00_scope.md R7 -/
  params : s.params.Legal
  /-- 10_state.md R28 -/
  rbBound : s.rb.length ≤ rbCapEff s.params
  /-- R30 -/
  fifoBound : s.fifo.length ≤ s.params.fifoCap
  /-- R30 -/
  fifoData : ∀ f ∈ s.fifo, f.data.length ≤ maxDataSize s.params
  /-- R31 -/
  oqBound : s.oq.length ≤ s.params.oqCap
  /-- R31 -/
  oqItems : ∀ i ∈ s.oq, i.Ok s.params
  /-- An item that is not the head has never been sent (44_sequencer.md R142). -/
  oqTail : ∀ i ∈ s.oq.drop 1, i.retries ≠ 0
  /-- A head that is not outstanding has a send left (40_ring_fifo.md R91). -/
  oqHead : ¬ Outstanding s → ∀ h ∈ s.oq.head?, h.retries ≠ 0
  /-- R25 -/
  staging : s.stg.data.length ≤ maxDataSize s.params
  /-- R27: the outstanding request is the head of OQ and expects an answer. -/
  request : Outstanding s → ∃ h ∈ s.oq.head?, h.expectsAnswer = true
  /-- R27: a MESSAGE callout is held in IDLE only. -/
  message : s.eng.callout = .message → s.eng.state = .idle
  /-- 44_sequencer.md R131: an ANSWER or TIMEOUT callout is held in WAITING only. -/
  reply : s.eng.callout = .answer ∨ s.eng.callout = .timeout → s.eng.state = .waiting
  /-- R27: the processing flag says that a MESSAGE callout is held. -/
  processing : s.eng.processing = true ↔ s.eng.callout = .message
  /-- 70_reset_and_hazards.md R176: EVT is the event of the held callout. -/
  event : s.eng.callout ≠ .none → s.evt.kind = s.eng.callout
  /-- R32: 256 bytes, those past `len` zero. -/
  eventData : s.evt.data.length = 256 ∧ s.evt.len.toNat ≤ maxDataSize s.params ∧
    ∀ k, s.evt.len.toNat ≤ k → byteAt s.evt.data k = 0
  /-- R29 -/
  scanner : s.scn.Ok s.params s.rb
  /-- 60_exceptions.md R155 -/
  frameErr : s.frameErr.fromLine = true

/-- A safe step: the machine goes on, by no fault and no refusal. -/
def SafeStep (s : State) : Prop := ∃ s', step s = .next s'

end Sys2Proof.Machine
end

