-- ==== Sys2Proof/WellFormed.lean ====
section
/-! DEFINITION. Which commands are well-formed: those whose operands hold no reserved value. The operand widths are
carried by the types of Syntax, so the reserved CRC mode (30_encoding.md R60, R63) is the one thing left to check.
The decoder reads, and the machine runs, the reserved mode as well: SEND_ANSWER then fails as 44_sequencer.md R135 says. -/

namespace Sys2Proof

/-- A CRC mode the assembler syntax R74 can write: INHERIT, OFF or ON. -/
def CrcMode.defined : CrcMode → Bool
  | .inherit => true
  | .off => true
  | .on => true
  | .reserved => false

/-- No operand holds a reserved value (R63). -/
def Instr.wellFormed : Instr → Bool
  | .nop => true
  | .reset => true
  | .loop => true
  | .crcInit _ => true
  | .crcFeed _ => true
  | .chkInit _ => true
  | .chkFeed _ => true
  | .stageClear => true
  | .stagePush _ => true
  | .stageSubcmd _ => true
  | .stageRetry _ => true
  | .sendMessage _ _ _ => true
  | .sendMessageNa _ _ => true
  | .sendAnswer _ m => m.defined
  | .noAnswer => true
  | .handlerReturn _ => true

end Sys2Proof
end

