-- ==== Sys2Proof/Certificates/Slice0/Obligations.lean ====
section
/-! DEFINITION. The statements for the provers. Each docstring names the rules of spec/ that the statement formalises
or rests on. Masks of WARN: 0x01 GARBAGE, 0x02 FRAME_ERR, 0x04 FIFO_OVERFLOW, 0x08 SHED, 0x10 NO_ANSWER,
0x20 HANDLER_ERR, 0x40 CMD_ERR. -/

open Sys2Proof Sys2Proof.Machine

/-! ### Command words -/

/-- R59, R60, R61, R74: no operand bit is lost between the assembler and the decoder, for every command and every
operand value, the reserved CRC mode among them. -/
def Obligations.DecodeOfEncode : Prop :=
  ∀ i : Instr, decode (encode i) = .ok i

/-- R59, R63, R74: what the decoder reads from a word, assembled again, is the word with its ignored bits 0. -/
def Obligations.EncodeOfDecode : Prop :=
  ∀ (w : Word) (i : Instr), decode w = .ok i → encode i = w &&& usedBits (opcode w)

/-- R63: two words that differ only in ignored bits execute identically, and CRC mode 3 is the one reserved operand
value. -/
def Obligations.IgnoredBitsAreIgnored : Prop :=
  (∀ (w w' : Word) (s : State), opcode w = opcode w' → w &&& usedBits (opcode w) = w' &&& usedBits (opcode w) →
    execute w s = execute w' s) ∧
  (∀ i : Instr, i.wellFormed = false ↔ ∃ ft, i = .sendAnswer ft .reserved)

/-- R62: an opcode that is not in the map fails with ILLEGAL_OPCODE and has no other effect. -/
def Obligations.IllegalOpcodeFails : Prop :=
  ∀ (w : Word) (s : State),
    w.extractLsb' 24 8 ∉ ([0x00, 0x01, 0x02, 0x10, 0x11, 0x12, 0x13, 0x20, 0x21, 0x22, 0x23, 0x30, 0x31, 0x32, 0x33,
      0x34] : List Byte) →
    execute w s = .next { s with cmdStatus := .illegalOpcode, warn := s.warn ||| 0x40 }

/-- R76: the encoding examples of the spec, each decoded to its command, and one illegal word. -/
def Obligations.SpecWordsDecode : Prop :=
  decode 0x02000000 = .ok .loop ∧
  decode 0x10000000 = .ok (.crcInit 0x0000) ∧
  decode 0x11000031 = .ok (.crcFeed 0x31) ∧
  decode 0x30020101 = .ok (.sendMessage 0x01 true 2) ∧
  decode 0x3100007C = .ok (.sendMessageNa 0x7C false) ∧
  decode 0x32000002 = .ok (.sendAnswer 0x02 .inherit) ∧
  decode 0x32000202 = .ok (.sendAnswer 0x02 .on) ∧
  decode 0x230001F4 = .ok (.stageRetry 500) ∧
  decode 0x34000000 = .ok (.handlerReturn .ok) ∧
  decode 0x7F000000 = .error (.illegalOpcode 0x7F)

/-- R145, R148 and log 4: when the agent about to move is the host writing the word of a command to CMD, the step is
that command's meaning, in the state from which this one agent step has been taken. -/
def Obligations.StepRunsDecodedCommand : Prop :=
  ∀ (s : State) (addr w : Word) (rest : List AgentStep) (i : Instr),
    s.pending = .hostWrite addr w :: rest →
    regOffset (addr - s.params.windowBase).toNat = 0x004 →
    decode w = .ok i →
    step s = exec i { s with pending := rest }

/-! ### CRC-16 generator and checksum engine (41_crc_checksum.md) -/

/-- R99: CRC_INIT h. -/
def Obligations.CrcInitLoadsAccumulator : Prop :=
  (∀ w : Word, w.extractLsb' 24 8 = 0x10 → decode w = .ok (.crcInit (w.extractLsb' 0 16))) ∧
  ∀ (h : Half) (s : State), exec (.crcInit h) s = .next { s with crcAcc := h, cmdStatus := .ok }

/-- R100, R93: CRC_FEED b; the eight shifts of R93 are written out. -/
def Obligations.CrcFeedFoldsOneByte : Prop :=
  let shift := fun c : Half => if c.getLsbD 0 then (c >>> 1) ^^^ 0xA001#16 else c >>> 1
  (∀ w : Word, w.extractLsb' 24 8 = 0x11 → decode w = .ok (.crcFeed (w.extractLsb' 0 8))) ∧
  ∀ (b : Byte) (s : State), exec (.crcFeed b) s = .next { s with
    crcAcc := shift (shift (shift (shift (shift (shift (shift (shift (s.crcAcc ^^^ b.setWidth 16)))))))),
    cmdStatus := .ok }

/-- R101: CHK_INIT b. -/
def Obligations.ChkInitLoadsAccumulator : Prop :=
  (∀ w : Word, w.extractLsb' 24 8 = 0x12 → decode w = .ok (.chkInit (w.extractLsb' 0 8))) ∧
  ∀ (b : Byte) (s : State), exec (.chkInit b) s = .next { s with chkAcc := b, cmdStatus := .ok }

/-- R102: CHK_FEED b adds modulo 256 and folds no escape. -/
def Obligations.ChkFeedAddsOneByte : Prop :=
  (∀ w : Word, w.extractLsb' 24 8 = 0x13 → decode w = .ok (.chkFeed (w.extractLsb' 0 8))) ∧
  ∀ (b : Byte) (s : State),
    exec (.chkFeed b) s =
      .next { s with chkAcc := BitVec.ofNat 8 ((s.chkAcc.toNat + b.toNat) % 256), cmdStatus := .ok }

/-- R75, R96, R100, R102: the pseudo-commands CRC_BLOCK and CHK_BLOCK, run step by step from any state, leave crc16 of
their bytes in CRC_ACC, respectively their sum modulo 256 in CHK_ACC, and change nothing else but CMD_STATUS. -/
def Obligations.BlocksComputeCrcAndChecksum : Prop :=
  ∀ (h : Half) (b : Byte) (bs : List Byte) (rest : List AgentStep) (s : State),
    (s.pending = expand s.params (.crcBlock h bs) ++ rest →
      core.run (bs.length + 1) s = .next { s with crcAcc := crc16 bs h, cmdStatus := .ok, pending := rest }) ∧
    (s.pending = expand s.params (.chkBlock b bs) ++ rest →
      core.run (bs.length + 1) s = .next { s with
        chkAcc := BitVec.ofNat 8 (b.toNat + (bs.map BitVec.toNat).sum), cmdStatus := .ok, pending := rest })

/-- R94: the table-driven CRC is equal to the shifting one, for every accumulator and byte. -/
def Obligations.CrcTableFormAgrees : Prop :=
  (∀ (c : Half) (b : Byte), crc16Byte c b = (c >>> 8) ^^^ crcTable ((c ^^^ b.setWidth 16).setWidth 8)) ∧
  crcTable 0x00 = 0x0000 ∧ crcTable 0x01 = 0xC0C1 ∧ crcTable 0x02 = 0xC181 ∧ crcTable 0x03 = 0x0140 ∧
  crcTable 0x80 = 0xA001 ∧ crcTable 0xFF = 0x4040

/-! ### Wire frame and codec (30_encoding.md section 3, 42_frame_codec.md) -/

/-- R64: the logical frame, position by position, with the checksum R97 and the CRC R98 of the covered range. -/
def Obligations.LogicalFrameLayout : Prop :=
  ∀ (ft : Byte) (d : List Byte) (c : Bool),
    let n := d.length
    let l := logicalFrame ft d c
    let v := (l.take (10 + n)).drop 2
    l.length = (if c then 13 + n else 11 + n) ∧
    l[0]? = some 0xFF ∧ l[1]? = some 0xFF ∧ (n ≤ 247 → l[2]? = some (BitVec.ofNat 8 (8 + n))) ∧
    l[3]? = some (if c then 0x40 else 0x00) ∧
    (∀ k, 4 ≤ k → k ≤ 8 → l[k]? = some 0x00) ∧
    l[9]? = some ft ∧
    (∀ k, k < n → l[10 + k]? = d[k]?) ∧
    l[10 + n]? = some (BitVec.ofNat 8 ((v.map BitVec.toNat).sum + 0x55 * v.count 0xFF)) ∧
    (c = true → l[11 + n]? = some ((crc16 v 0).extractLsb' 8 8) ∧ l[12 + n]? = some ((crc16 v 0).extractLsb' 0 8))

/-- R106, R107: the physical length, which `buffer_size` counts, is the logical length plus the escapes, and `limit`
decides by it. -/
def Obligations.FillBufferNeedsExactRoom : Prop :=
  ∀ (ft : Byte) (d : List Byte) (c : Bool) (limit : Nat),
    let l := logicalFrame ft d c
    let size := l.length + (l.drop 2).count 0xFF
    bufferSize ft d c = size ∧
    (limit < size → fillBuffer ft d c limit = (0, [])) ∧
    (size ≤ limit → (fillBuffer ft d c limit).1 = size ∧ (fillBuffer ft d c limit).2.length = size ∧
      (fillBuffer ft d c limit).2 =
        [0xFF, 0xFF] ++ (l.drop 2).flatMap (fun b => if b = 0xFF then [0xFF, 0x55] else [b]))

/-- R118, from R69 and R71: in the physical frame of a legal data length the byte after the separators is no
separator, and every later separator is followed by the post-byte. -/
def Obligations.NoSeparatorPairInsideFrame : Prop :=
  ∀ (p : Params) (ft : Byte) (d : List Byte) (c : Bool), p.Legal → d.length ≤ maxDataSize p →
    let ph := physical (logicalFrame ft d c)
    ph[0]? = some 0xFF ∧ ph[1]? = some 0xFF ∧ ph[2]? ≠ some 0xFF ∧ ph.length ≤ physMax p ∧
    ∀ k, 2 ≤ k → ph[k]? = some 0xFF → ph[k + 1]? = some 0x55

/-- R113: scanning the physical frame of any type, data and CRC flag from an empty RB in SYNC pushes exactly that
frame, with arrival `now`, and leaves RB empty and the scanner in SYNC. -/
def Obligations.FrameRoundTrip : Prop :=
  ∀ (s : State) (now : Word) (ft : Byte) (d : List Byte) (c : Bool),
    s.params.Legal → d.length ≤ maxDataSize s.params → s.scn = Scanner.idle →
    s.rb = physical (logicalFrame ft d c) → s.fifo.length < s.params.fifoCap →
    processData now s = .ok { s with
      rb := []
      fifo := s.fifo ++ [{ ftype := ft, useCrc := c, data := d, arrival := now }]
      stat := { s.stat with rxFrames := s.stat.rxFrames + 1 } }

/-- R112: a nonzero subcommand stands first, high byte first; 0 means none. -/
def Obligations.SerializePutsSubcommandFirst : Prop :=
  ∀ (sub : Half) (d : List Byte),
    (sub = 0 → serialize sub d = d) ∧
    (sub ≠ 0 → serialize sub d = BitVec.ofNat 8 (sub.toNat / 256) :: BitVec.ofNat 8 (sub.toNat % 256) :: d)

/-- R109: the verdicts of the header parser, in the order of its tests. -/
def Obligations.HeaderVerdicts : Prop :=
  ∀ (p : Params) (a : List Byte) (st : FrameStatus),
    parseHeader p a st =
      if st ≠ .empty then .error .unknownData
      else if a.length < 10 then .error .frameTooSmall
      else if a[0]? ≠ some 0xFF ∨ a[1]? ≠ some 0xFF then .error .separatorWrong
      else if (a.getD 2 0).toNat < 8 then .error .headerTooSmall
      else if (a.getD 2 0).toNat > p.maxFrameSize then .error .headerTooBig
      else .ok { ftype := a.getD 9 0, useCrc := (a.getD 3 0).getLsbD 6,
                 dataLen := BitVec.ofNat 8 ((a.getD 2 0).toNat - 8) }

/-- R110: the verdicts of the body parser, in the order of its tests, with `sum(V)` as a natural number. -/
def Obligations.BodyVerdicts : Prop :=
  ∀ (a : List Byte) (h : Header) (esc : Byte) (st : FrameStatus),
    let n := h.dataLen.toNat
    let v := (a.take (10 + n)).drop 2
    parseBody a h esc st =
      if st ≠ .headerOnly then .error .unknownData
      else if a.length < 10 + n + (if h.useCrc then 3 else 1) then .error .dataSizeWrong
      else if h.useCrc = true ∧ (crc16 v 0).toNat ≠ (a.getD (11 + n) 0).toNat * 256 + (a.getD (12 + n) 0).toNat then
        .error .crcWrong
      else if ((v.map BitVec.toNat).sum + 0x55 * esc.toNat) % 256 ≠ (a.getD (10 + n) 0).toNat then
        .error .checksumWrong
      else .ok { ftype := h.ftype, useCrc := h.useCrc, data := (a.take (10 + n)).drop 10, status := .complete }

/-! ### Ring buffer, frame FIFO, outgoing queue (40_ring_fifo.md) -/

/-- R79: `rb_push_slice` stores what fits and no more. -/
def Obligations.RbPushSliceStoresWhatFits : Prop :=
  ∀ (bs : List Byte) (s : State),
    rbPushSlice bs s =
      (min bs.length (rbCapEff s.params - s.rb.length),
       { s with rb := s.rb ++ bs.take (min bs.length (rbCapEff s.params - s.rb.length)) }) ∧
    (s.rb.length ≤ rbCapEff s.params → (rbPushSlice bs s).2.rb.length ≤ rbCapEff s.params)

/-- R81: `rb_peek` reads a held byte, and faults with RB_PEEK_RANGE outside RB. -/
def Obligations.RbPeekFaultsOutside : Prop :=
  ∀ (k : Nat) (s : State),
    (s.rb.length ≤ k → rbPeek k s = .error .rbPeekRange) ∧
    (∀ h : k < s.rb.length, rbPeek k s = .ok s.rb[k])

/-- R86: a full FIFO loses its oldest frame, which is counted and flagged. -/
def Obligations.FifoPushDropsOldest : Prop :=
  ∀ (f : RxFrame) (s : State),
    (s.fifo.length ≠ s.params.fifoCap → fifoPush f s = { s with fifo := s.fifo ++ [f] }) ∧
    (s.fifo.length = s.params.fifoCap → fifoPush f s = { s with
      fifo := s.fifo.drop 1 ++ [f]
      stat := { s.stat with fifoDrops := s.stat.fifoDrops + 1 }
      warn := s.warn ||| 0x04 })

/-- R53, R142: a step changes the outgoing queue only at its ends: an item joins at the back, the head loses a retry,
the head leaves, or the queue is emptied by RESET, that is by the host writing a word of RESET to CMD (R170). -/
def Obligations.QueueMovesInOrder : Prop :=
  ∀ s s' : State, step s = .next s' →
    s'.oq = s.oq ∨ (∃ item, s'.oq = s.oq ++ [item]) ∨ (∃ h, s.oq = h :: s'.oq) ∨
    (∃ h rest, s.oq = h :: rest ∧ s'.oq = { h with retries := h.retries - 1 } :: rest) ∨
    ∃ addr w rest, s.pending = .hostWrite addr w :: rest ∧
      (let off := (addr - s.params.windowBase).toNat; off % 4096 - off % 4 = 0x004) ∧
      decode w = .ok .reset ∧ s'.oq = []

/-- R40, R151: no step removes or alters a byte already written to TX_LINE. -/
def Obligations.TransmitLineOnlyGrows : Prop :=
  ∀ s s' : State, step s = .next s' → ∃ out, s'.txLine = s.txLine ++ out

/-! ### Frame scanner (43_frame_scanner.md) -/

/-- R117: `sync_search` locks at the least position of `FF FF x` with x no separator; with none it keeps the longest
tail of at most two separators. -/
def Obligations.SyncSearchFindsFirstStart : Prop :=
  ∀ (rb : List Byte) (i : Nat) (locked : Bool), syncSearch rb = (i, locked) →
    let start := fun j => j + 2 < rb.length ∧ rb[j]? = some 0xFF ∧ rb[j + 1]? = some 0xFF ∧ rb[j + 2]? ≠ some 0xFF
    let tail := fun j => rb.length ≤ j + 2 ∧ ∀ b ∈ rb.drop j, b = 0xFF
    (locked = true → start i ∧ ∀ j, j < i → ¬ start j) ∧
    (locked = false → (∀ j, ¬ start j) ∧ i ≤ rb.length ∧ tail i ∧ ∀ j, j < i → ¬ tail j)

/-- R115, R119, R121 to R124: `process_data` is the stale check and then the loop, and the bounded loop of the model is
the loop of the rule: one pass, and again from its state when the pass does not return, for every state. `lock` and
`abort` are written out; `accept` is, by its cases: the byte joins the attempt (`c` is SCN then); the tenth byte ends the
header, the last one the body; a parse error aborts, and a verified body becomes one frame at the back of FIFO, from
which a full FIFO loses its oldest (R86). -/
def Obligations.ScanIsTheLoop : Prop :=
  let idle : Scanner :=
    { phase := .sync, consumed := 0, asm := [], esc := 0, start := 0, useCrc := false, ftype := 0, dataLen := 0 }
  let aborted := fun (e : FrameError) (s : State) => { s with
    rb := s.rb.drop s.scn.consumed
    frameErr := e
    stat := { s.stat with frameErrors := s.stat.frameErrors + 1 }
    warn := s.warn ||| 0x02
    scn := idle }
  (∀ (now : Word) (s : State), processData now s = scan now (staleCheck now s)) ∧
  (∀ (now : Word) (s : State), scan now s =
    match s.scn.phase with
    | .sync =>
      let found := syncSearch s.rb
      let s1 := if 0 < found.1 then
          { s with rb := s.rb.drop found.1
                   stat := { s.stat with garbage := s.stat.garbage + BitVec.ofNat 32 found.1 }
                   warn := s.warn ||| 0x01 }
        else s
      if found.2 then scan now (lock now s1) else .ok s1
    | .header | .body =>
      match nextLogical s with
      | .error f => .error f
      | .ok .needMore => .ok s
      | .ok .violation => scan now (abort .wrongPostByte s)
      | .ok (.byte b e) => scan now (accept now b e s)) ∧
  (∀ (now : Word) (s : State), lock now s = { s with
    scn := { phase := .header, consumed := 2, asm := [0xFF, 0xFF], esc := 0, start := now, useCrc := false, ftype := 0,
             dataLen := 0 } }) ∧
  (∀ (e : FrameError) (s : State), abort e s = aborted e s) ∧
  ∀ (now : Word) (b : Byte) (escaped : Bool) (s : State),
    let p := s.scn.asm.length
    let c : Scanner := { s.scn with
      asm := s.scn.asm ++ [b]
      consumed := s.scn.consumed + (if escaped then 2 else 1)
      esc := if escaped = true ∧ 2 ≤ p ∧ (s.scn.phase = .header ∨ p < 10 + s.scn.dataLen.toNat) then s.scn.esc + 1
             else s.scn.esc }
    let s1 := { s with scn := c }
    accept now b escaped s =
      if c.phase = .header ∧ c.asm.length = 10 then
        match parseHeader s.params c.asm .empty with
        | .error e => aborted e s1
        | .ok h => { s with scn := { c with phase := .body, ftype := h.ftype, useCrc := h.useCrc, dataLen := h.dataLen } }
      else if c.phase = .body ∧ c.asm.length = 10 + c.dataLen.toNat + (if c.useCrc then 3 else 1) then
        match parseBody c.asm { ftype := c.ftype, useCrc := c.useCrc, dataLen := c.dataLen } c.esc .headerOnly with
        | .error e => aborted e s1
        | .ok f =>
          let full := s.fifo.length = s.params.fifoCap
          let frame : RxFrame := { ftype := f.ftype, useCrc := f.useCrc, data := f.data, arrival := now }
          { s with
            rb := s.rb.drop c.consumed
            fifo := (if full then s.fifo.drop 1 else s.fifo) ++ [frame]
            stat := { s.stat with rxFrames := s.stat.rxFrames + 1,
                                  fifoDrops := if full then s.stat.fifoDrops + 1 else s.stat.fifoDrops }
            warn := if full then s.warn ||| 0x04 else s.warn
            scn := idle }
      else s1

/-- R120: the next logical byte, by the bytes of RB from SCN.consumed on; no case reads outside RB. -/
def Obligations.NextLogicalUnstuffs : Prop :=
  ∀ s : State,
    nextLogical s = .ok (match s.rb[s.scn.consumed]?, s.rb[s.scn.consumed + 1]? with
      | none, _ => .needMore
      | some b, after =>
        if b ≠ 0xFF then .byte b false
        else match after with
          | none => .needMore
          | some x => if x = 0x55 then .byte 0xFF true else .violation)

/-- R116, R124: an attempt open for more than FRAME_TIMEOUT_MS is dropped with its consumed bytes and recorded as
FRAME_TIMEOUT; nothing happens in SYNC or at exactly FRAME_TIMEOUT_MS. -/
def Obligations.StaleAttemptDropped : Prop :=
  ∀ (now : Word) (s : State),
    (s.scn.phase ≠ .sync ∧ (now - s.scn.start).toNat > s.params.frameTimeoutMs →
      staleCheck now s = { s with
        rb := s.rb.drop s.scn.consumed
        frameErr := .frameTimeout
        stat := { s.stat with frameErrors := s.stat.frameErrors + 1 }
        warn := s.warn ||| 0x02
        scn := Scanner.idle }) ∧
    (s.scn.phase = .sync ∨ (now - s.scn.start).toNat ≤ s.params.frameTimeoutMs → staleCheck now s = s)

/-- R126: what the scanner leaves in RB is a tail of what it found there, so every byte leaves from the front. -/
def Obligations.ScannerConsumesFromFront : Prop :=
  ∀ (now : Word) (s s' : State), processData now s = .ok s' → ∃ gone, s.rb = gone ++ s'.rb

/-- R127: after the scanner has run on what LOOP reads first (log 18), RB has room for at least one more byte, whatever
the line sent. -/
def Obligations.ScannerLeavesRoom : Prop :=
  ∀ (now : Word) (s s' : State), MachineInv s → processData now (readData s) = .ok s' → s'.rb.length < rbCapEff s'.params

/-! ### LOOP and the sequencer (44_sequencer.md) -/

/-- R114, first: reading the line moves the bytes that fit in RB, in order, from the front of RX_LINE to the back of RB
and changes nothing else. R128, R163: LOOP completes from every state with no callout held and, in WAITING, an outstanding request; what it
may change is the scanner's, the sequencer's and the lines' state and the statistics. It takes from RX_LINE what fits in
RB as LOOP found it: that the line is read before the stale check is the model's reading (log 18). -/
def Obligations.LoopCompletes : Prop :=
  (∀ s : State,
    let free := rbCapEff s.params - s.rb.length
    readData s = { s with rb := s.rb ++ s.rxLine.take free, rxLine := s.rxLine.drop free }) ∧
  ∀ s : State, s.eng.callout = .none → (s.eng.state = .waiting → s.oq ≠ []) →
    ∃ t, exec .loop s = .next t ∧
      t = { s with rb := t.rb, scn := t.scn, fifo := t.fifo, oq := t.oq, eng := t.eng, evt := t.evt,
                   cmdStatus := .ok, warn := t.warn, frameErr := t.frameErr, stat := t.stat,
                   rxLine := s.rxLine.drop (rbCapEff s.params - s.rb.length), txLine := t.txLine }

/-- R128, corner case: a LOOP with no bytes, no frames, an empty OQ and no open attempt changes only CMD_STATUS. -/
def Obligations.QuietLoopChangesNothing : Prop :=
  ∀ s : State, s.eng.callout = .none → s.eng.state = .idle → s.rxLine = [] → s.rb = [] → s.scn = Scanner.idle →
    s.fifo = [] → s.oq = [] → exec .loop s = .next { s with cmdStatus := .ok }

/-- Rests on R128, R129 and log 18: LOOP in IDLE once the line is read and then RB scanned; that the line is read before
the scan's stale check is the model's reading (log 18). By the frames and items queued: the newest frame is dispatched as a MESSAGE
callout and the older ones are shed; with no frame queued the head of OQ is sent when both deadlines have elapsed, and
otherwise nothing happens. -/
def Obligations.IdleLoopDispatchesOrSends : Prop :=
  ∀ s s1 : State, s.eng.callout = .none → processData s.time (readData s) = .ok s1 → s1.eng.state = .idle →
    (∀ older f, s1.fifo = older ++ [f] → f.data.length ≤ 255 →
      exec .loop s = .next { s1 with
        fifo := []
        stat := { s1.stat with shed := s1.stat.shed + BitVec.ofNat 32 older.length }
        warn := if older = [] then s1.warn else s1.warn ||| 0x08
        eng := { s1.eng with callout := .message, processing := true, answerSent := false, noAnswer := false,
                             inUseCrc := f.useCrc }
        evt := { kind := .message, reqType := 0, ftype := f.ftype, useCrc := f.useCrc,
                 len := BitVec.ofNat 8 f.data.length, time := f.arrival,
                 data := f.data ++ List.replicate (256 - f.data.length) 0 }
        cmdStatus := .ok }) ∧
    (s1.fifo = [] → s1.oq = [] → exec .loop s = .next { s1 with cmdStatus := .ok }) ∧
    (∀ h rest, s1.fifo = [] → s1.oq = h :: rest →
      let ready := (s1.eng.coolArmed = false ∨ (s.time - s1.eng.lastSend).toNat ≥ s1.params.cooldownMs) ∧
        (s.time - s1.eng.retryBase).toNat ≥ s1.eng.retryWait.toNat
      (ready → exec .loop s = .next (cmdOk (sendHead s.time h s1))) ∧
      (¬ ready → exec .loop s = .next { s1 with cmdStatus := .ok }))

/-- R130: what sending the head of OQ does, for an item that expects an answer and for one that does not; a frame is
written unless its data are longer than MAX_DATA_SIZE, which no queued item's are (R108, R133). -/
def Obligations.SendHeadTransmits : Prop :=
  ∀ (now : Word) (h : OutItem) (rest : List OutItem) (s : State),
    s.oq = h :: rest →
    let sent := if maxDataSize s.params < h.data.length then s else { s with
      txLine := s.txLine ++ physical (logicalFrame h.ftype h.data h.useCrc)
      stat := { s.stat with txFrames := s.stat.txFrames + 1 } }
    (h.expectsAnswer = true → sendHead now h s = { sent with
      oq := { h with retries := h.retries - 1 } :: rest
      eng := { s.eng with lastSend := now, coolArmed := true, state := .waiting, ansBase := now, retryBase := now,
                          retryWait := h.retryInterval.setWidth 32 } }) ∧
    (h.expectsAnswer = false → sendHead now h s = { sent with
      oq := rest
      eng := { s.eng with lastSend := now, coolArmed := true, retryBase := now, retryWait := 0 } })

/-- Rests on R128, R131 and log 18: LOOP in WAITING once the line is read and then RB scanned; that the line is read before
the scan's stale check is the model's reading (log 18). The answer timeout first, then an answer. -/
def Obligations.WaitingLoopTimesOutOrAnswers : Prop :=
  ∀ (s s1 : State) (h : OutItem) (rest : List OutItem), s.eng.callout = .none →
    processData s.time (readData s) = .ok s1 → s1.eng.state = .waiting → s1.oq = h :: rest →
    let late := (s.time - s1.eng.ansBase).toNat > s1.params.answerTimeoutMs
    (late → h.retries = 0 → exec .loop s = .next { s1 with
      oq := rest
      stat := { s1.stat with timeouts := s1.stat.timeouts + 1 }
      eng := { s1.eng with callout := .timeout }
      evt := { kind := .timeout, reqType := h.ftype, ftype := 0, useCrc := h.useCrc, len := 0, time := s.time,
               data := List.replicate 256 0 }
      cmdStatus := .ok }) ∧
    (late → h.retries ≠ 0 → exec .loop s = .next { s1 with
      eng := { s1.eng with state := .idle }, cmdStatus := .ok }) ∧
    (∀ f later, ¬ late → s1.fifo = f :: later → f.data.length ≤ 255 → exec .loop s = .next { s1 with
      fifo := later
      eng := { s1.eng with callout := .answer }
      evt := { kind := .answer, reqType := h.ftype, ftype := f.ftype, useCrc := f.useCrc,
               len := BitVec.ofNat 8 f.data.length, time := f.arrival,
               data := f.data ++ List.replicate (256 - f.data.length) 0 }
      cmdStatus := .ok }) ∧
    (¬ late → s1.fifo = [] → exec .loop s = .next { s1 with cmdStatus := .ok })

/-- R132: HANDLER_RETURN in each of the three callouts, and outside them. The result is W[2:0] (R60) by the codes of
R156. -/
def Obligations.HandlerReturnLeavesCallout : Prop :=
  (∀ w : Word, w.extractLsb' 24 8 = 0x34 →
    let res := w.extractLsb' 0 3
    (res = 0 → decode w = .ok (.handlerReturn .ok)) ∧
    (res = 1 → decode w = .ok (.handlerReturn .unsupportedMessage)) ∧
    (res = 2 → decode w = .ok (.handlerReturn .unexpectedMessage)) ∧
    (res = 3 → decode w = .ok (.handlerReturn .unsupportedSubcommand)) ∧
    (res = 4 → decode w = .ok (.handlerReturn .wrongMessageStructure)) ∧
    (res = 5 → decode w = .ok (.handlerReturn .invalidAnswer)) ∧
    (res = 6 → decode w = .ok (.handlerReturn .runtimeError)) ∧
    (res = 7 → decode w = .ok (.handlerReturn .unknownError))) ∧
  ∀ (res : HandlerResult) (s : State),
    let warned := if res = .ok then s.warn else s.warn ||| 0x20
    (s.eng.callout = .none →
      exec (.handlerReturn res) s = .next { s with cmdStatus := .notInCallout, warn := s.warn ||| 0x40 }) ∧
    (s.eng.callout = .message → s.eng.answerSent = false → s.eng.noAnswer = false →
      exec (.handlerReturn res) s = .next { s with
        hresult := res
        warn := warned ||| 0x10
        stat := { s.stat with noAnswer := s.stat.noAnswer + 1 }
        eng := { s.eng with processing := false, callout := .none }
        cmdStatus := .ok }) ∧
    (s.eng.callout = .message → (s.eng.answerSent = true ∨ s.eng.noAnswer = true) →
      exec (.handlerReturn res) s = .next { s with
        hresult := res
        warn := warned
        eng := { s.eng with processing := false, callout := .none }
        cmdStatus := .ok }) ∧
    (s.eng.callout = .answer →
      exec (.handlerReturn res) s = .next { s with
        hresult := res
        warn := warned
        oq := s.oq.drop 1
        eng := { s.eng with state := .idle, callout := .none }
        cmdStatus := .ok }) ∧
    (s.eng.callout = .timeout →
      exec (.handlerReturn res) s = .next { s with
        hresult := res
        warn := warned
        eng := { s.eng with state := .idle, callout := .none }
        cmdStatus := .ok })

/-- R133: SEND_MESSAGE queues a request, or fails with OVERSIZE, then QUEUE_FULL. -/
def Obligations.SendMessageQueuesRequest : Prop :=
  (∀ w : Word, w.extractLsb' 24 8 = 0x30 →
    decode w = .ok (.sendMessage (w.extractLsb' 0 8) (w.getLsbD 8) (w.extractLsb' 16 8))) ∧
  ∀ (ft : Byte) (c : Bool) (r : Byte) (s : State),
    let d := serialize s.stg.subcmd s.stg.data
    (d.length > maxDataSize s.params →
      exec (.sendMessage ft c r) s = .next { s with cmdStatus := .oversize, warn := s.warn ||| 0x40 }) ∧
    (d.length ≤ maxDataSize s.params → s.oq.length = s.params.oqCap →
      exec (.sendMessage ft c r) s = .next { s with cmdStatus := .queueFull, warn := s.warn ||| 0x40 }) ∧
    (d.length ≤ maxDataSize s.params → s.oq.length ≠ s.params.oqCap →
      exec (.sendMessage ft c r) s = .next { s with
        oq := s.oq ++ [{ ftype := ft, data := d, useCrc := c, expectsAnswer := true,
                         retries := BitVec.ofNat 8 (min r.toNat s.params.maxRetries + 1),
                         retryInterval := s.stg.retry }]
        cmdStatus := .ok })

/-- R134: SEND_MESSAGE_NA queues a notification, or fails with OVERSIZE, then QUEUE_FULL. -/
def Obligations.SendMessageNaQueuesNotification : Prop :=
  (∀ w : Word, w.extractLsb' 24 8 = 0x31 →
    decode w = .ok (.sendMessageNa (w.extractLsb' 0 8) (w.getLsbD 8))) ∧
  ∀ (ft : Byte) (c : Bool) (s : State),
    let d := serialize s.stg.subcmd s.stg.data
    (d.length > maxDataSize s.params →
      exec (.sendMessageNa ft c) s = .next { s with cmdStatus := .oversize, warn := s.warn ||| 0x40 }) ∧
    (d.length ≤ maxDataSize s.params → s.oq.length = s.params.oqCap →
      exec (.sendMessageNa ft c) s = .next { s with cmdStatus := .queueFull, warn := s.warn ||| 0x40 }) ∧
    (d.length ≤ maxDataSize s.params → s.oq.length ≠ s.params.oqCap →
      exec (.sendMessageNa ft c) s = .next { s with
        oq := s.oq ++ [{ ftype := ft, data := d, useCrc := c, expectsAnswer := false, retries := 1,
                         retryInterval := 0 }]
        cmdStatus := .ok })

/-- R135, R144: SEND_ANSWER writes a frame at once with the CRC mode of the message unless overridden, or fails with
NOT_IN_HANDLER, then BAD_OPERAND, then OVERSIZE. The mode is W[9:8] by the values of R60. -/
def Obligations.SendAnswerTransmitsAtOnce : Prop :=
  (∀ w : Word, w.extractLsb' 24 8 = 0x32 →
    let ft := w.extractLsb' 0 8
    let m := w.extractLsb' 8 2
    (m = 0 → decode w = .ok (.sendAnswer ft .inherit)) ∧ (m = 1 → decode w = .ok (.sendAnswer ft .off)) ∧
    (m = 2 → decode w = .ok (.sendAnswer ft .on)) ∧ (m = 3 → decode w = .ok (.sendAnswer ft .reserved))) ∧
  ∀ (ft : Byte) (m : CrcMode) (s : State),
    let d := serialize s.stg.subcmd s.stg.data
    let c := match m with
      | .inherit => s.eng.inUseCrc
      | .on => true
      | .off => false
      | .reserved => false
    (s.eng.processing = false →
      exec (.sendAnswer ft m) s = .next { s with cmdStatus := .notInHandler, warn := s.warn ||| 0x40 }) ∧
    (s.eng.processing = true → m = .reserved →
      exec (.sendAnswer ft m) s = .next { s with cmdStatus := .badOperand, warn := s.warn ||| 0x40 }) ∧
    (s.eng.processing = true → m ≠ .reserved → d.length > maxDataSize s.params →
      exec (.sendAnswer ft m) s = .next { s with cmdStatus := .oversize, warn := s.warn ||| 0x40 }) ∧
    (s.eng.processing = true → m ≠ .reserved → d.length ≤ maxDataSize s.params →
      exec (.sendAnswer ft m) s = .next { s with
        txLine := s.txLine ++ physical (logicalFrame ft d c)
        stat := { s.stat with txFrames := s.stat.txFrames + 1 }
        eng := { s.eng with answerSent := true, lastSend := s.time, coolArmed := true }
        cmdStatus := .ok })

/-- R136: NO_ANSWER. -/
def Obligations.NoAnswerMarksHandler : Prop :=
  (∀ w : Word, w.extractLsb' 24 8 = 0x33 → decode w = .ok .noAnswer) ∧
  ∀ s : State,
    (s.eng.processing = false →
      exec .noAnswer s = .next { s with cmdStatus := .notInHandler, warn := s.warn ||| 0x40 }) ∧
    (s.eng.processing = true →
      exec .noAnswer s = .next { s with eng := { s.eng with noAnswer := true }, cmdStatus := .ok })

/-- R137: STAGE_CLEAR keeps STG.retry. -/
def Obligations.StageClearKeepsRetry : Prop :=
  (∀ w : Word, w.extractLsb' 24 8 = 0x20 → decode w = .ok .stageClear) ∧
  ∀ s : State, exec .stageClear s = .next { s with
    stg := { data := [], subcmd := 0, retry := s.stg.retry }, cmdStatus := .ok }

/-- R138: STAGE_PUSH appends, or fails with STAGE_FULL at MAX_DATA_SIZE bytes. -/
def Obligations.StagePushAppends : Prop :=
  (∀ w : Word, w.extractLsb' 24 8 = 0x21 → decode w = .ok (.stagePush (w.extractLsb' 0 8))) ∧
  ∀ (b : Byte) (s : State),
    (s.stg.data.length = maxDataSize s.params →
      exec (.stagePush b) s = .next { s with cmdStatus := .stageFull, warn := s.warn ||| 0x40 }) ∧
    (s.stg.data.length ≠ maxDataSize s.params →
      exec (.stagePush b) s = .next { s with stg := { s.stg with data := s.stg.data ++ [b] }, cmdStatus := .ok })

/-- R139: STAGE_SUBCMD h. -/
def Obligations.StageSubcmdSetsSubcommand : Prop :=
  (∀ w : Word, w.extractLsb' 24 8 = 0x22 → decode w = .ok (.stageSubcmd (w.extractLsb' 0 16))) ∧
  ∀ (h : Half) (s : State),
    exec (.stageSubcmd h) s = .next { s with stg := { s.stg with subcmd := h }, cmdStatus := .ok }

/-- R140: STAGE_RETRY t. -/
def Obligations.StageRetrySetsInterval : Prop :=
  (∀ w : Word, w.extractLsb' 24 8 = 0x23 → decode w = .ok (.stageRetry (w.extractLsb' 0 24))) ∧
  ∀ (t : U24) (s : State),
    exec (.stageRetry t) s = .next { s with stg := { s.stg with retry := t }, cmdStatus := .ok }

/-- R141: only LOOP moves IDLE to WAITING, and it writes one frame, the head's, as it does; while a request is
outstanding no command writes to the line. -/
def Obligations.OneRequestAtATime : Prop :=
  ∀ (i : Instr) (s s' : State), MachineInv s → exec i s = .next s' →
    (s.eng.state = .idle → s'.eng.state = .waiting →
      i = .loop ∧ ∃ h ∈ s.oq.head?, h.expectsAnswer = true ∧
        s'.txLine = s.txLine ++ physical (logicalFrame h.ftype h.data h.useCrc)) ∧
    (s.eng.state = .waiting → s'.txLine = s.txLine)

/-- R143, under one schedule of the agents' steps, placed in `pending` (log 4): a request queued by SEND_MESSAGE ft, c, r
whose peer never answers is sent min(r, MAX_RETRIES) + 1 times and ends in one TIMEOUT callout. The host issues
SEND_MESSAGE and then, for each attempt, LOOP, a wait of `k` ticks longer than the answer timeout and not shorter than
the cooldown and the retry interval, and LOOP. -/
def Obligations.UnansweredRequestIsRetried : Prop :=
  ∀ (s : State) (ft : Byte) (c : Bool) (r : Byte) (k : Nat) (rest : List AgentStep),
    s.params.Legal → s.eng.callout = .none → s.eng.state = .idle →
    s.rxLine = [] → s.rb = [] → s.scn = Scanner.idle → s.fifo = [] → s.oq = [] →
    (serialize s.stg.subcmd s.stg.data).length ≤ maxDataSize s.params →
    (s.eng.coolArmed = false ∨ (s.time - s.eng.lastSend).toNat ≥ s.params.cooldownMs) →
    (s.time - s.eng.retryBase).toNat ≥ s.eng.retryWait.toNat →
    s.params.answerTimeoutMs < k → s.params.cooldownMs ≤ k → s.stg.retry.toNat ≤ k → k < 2 ^ 32 →
    let sends := min r.toNat s.params.maxRetries + 1
    let attempt := cmd s.params .loop :: (List.replicate k .tick ++ [cmd s.params .loop])
    s.pending = cmd s.params (.sendMessage ft c r) :: ((List.replicate sends attempt).flatten ++ rest) →
    ∃ t, core.run (1 + sends * (k + 2)) s = .next t ∧
      t.txLine = s.txLine ++
        (List.replicate sends (physical (logicalFrame ft (serialize s.stg.subcmd s.stg.data) c))).flatten ∧
      t.stat = { s.stat with txFrames := s.stat.txFrames + BitVec.ofNat 32 sends,
                             timeouts := s.stat.timeouts + 1 } ∧
      t.oq = [] ∧ t.eng.state = .waiting ∧ t.eng.callout = .timeout ∧ t.evt.reqType = ft ∧ t.pending = rest

/-! ### System commands, registers and the agents' steps (45_system.md, 10_state.md) -/

/-- R146: NOP clears CMD_STATUS and does nothing else. -/
def Obligations.NopClearsStatus : Prop :=
  (∀ w : Word, w.extractLsb' 24 8 = 0x00 → decode w = .ok .nop) ∧
  ∀ s : State, exec .nop s = .next { s with cmdStatus := .ok }

/-- Rests on R170, R171: RESET writes the reset value of every element but TIME, RX_LINE and TX_LINE. That the model's
own records stay, the agents' steps to come (log 4) and the values read (log 5), is the model's choice; so is the place
of the parameters, which R170 keeps (log 1). -/
def Obligations.ResetRestoresEveryElement : Prop :=
  (∀ w : Word, w.extractLsb' 24 8 = 0x01 → decode w = .ok .reset) ∧
  ∀ s : State, exec .reset s = .next {
    time := s.time, rxLine := s.rxLine, txLine := s.txLine,
    params := s.params, pending := s.pending, hostReads := s.hostReads,
    crcAcc := 0x0000, chkAcc := 0x00, rb := [],
    scn := { phase := .sync, consumed := 0, asm := [], esc := 0, start := 0, useCrc := false, ftype := 0, dataLen := 0 },
    fifo := [], oq := [],
    eng := { state := .idle, callout := .none, processing := false, answerSent := false, noAnswer := false,
             inUseCrc := false, lastSend := 0, coolArmed := false, ansBase := 0, retryBase := 0, retryWait := 0 },
    evt := { kind := .none, reqType := 0, ftype := 0, useCrc := false, len := 0, time := 0,
             data := List.replicate 256 0 },
    stg := { data := [], subcmd := 0, retry := 0 },
    cmdStatus := .ok, warn := 0, ie := 0, frameErr := .none, hresult := .ok,
    stat := { garbage := 0, frameErrors := 0, rxFrames := 0, fifoDrops := 0, shed := 0, txFrames := 0, timeouts := 0,
              noAnswer := 0 } }

/-- Rests on R6, R7, R169, R171: instantiation refuses every configuration that violates a constraint, and only those, and
gives every element its power-on value otherwise; the derived parameters are those of R6 and R28; and the machine's reset state is the instance whose parameters are the
defaults of R6. That the parameters are a field of State (log 1), that no agent's step is pending and no read recorded
(logs 4, 5), that the OPEN parameters are the constants of Config (log 2) and that the window's base is 0 (log 3) is the
model's choice. -/
def Obligations.InstantiationChecksParameters : Prop :=
  (∀ p : Params,
    let good := 8 ≤ p.maxFrameSize ∧ p.maxFrameSize ≤ 254 ∧ p.rbCap ≤ 65535 ∧ 1 ≤ p.fifoCap ∧ p.fifoCap ≤ 255 ∧
      1 ≤ p.oqCap ∧ p.oqCap ≤ 255 ∧ p.maxRetries ≤ 254 ∧ p.answerTimeoutMs < 2 ^ 31 ∧ p.cooldownMs < 2 ^ 31 ∧
      p.frameTimeoutMs < 2 ^ 31
    (p.Legal ↔ good) ∧
    (good → instantiate p = .next {
      time := 0, rxLine := [], txLine := [],
      params := p, pending := [], hostReads := [],
      crcAcc := 0x0000, chkAcc := 0x00, rb := [],
      scn := { phase := .sync, consumed := 0, asm := [], esc := 0, start := 0, useCrc := false, ftype := 0,
               dataLen := 0 },
      fifo := [], oq := [],
      eng := { state := .idle, callout := .none, processing := false, answerSent := false, noAnswer := false,
               inUseCrc := false, lastSend := 0, coolArmed := false, ansBase := 0, retryBase := 0, retryWait := 0 },
      evt := { kind := .none, reqType := 0, ftype := 0, useCrc := false, len := 0, time := 0,
               data := List.replicate 256 0 },
      stg := { data := [], subcmd := 0, retry := 0 },
      cmdStatus := .ok, warn := 0, ie := 0, frameErr := .none, hresult := .ok,
      stat := { garbage := 0, frameErrors := 0, rxFrames := 0, fifoDrops := 0, shed := 0, txFrames := 0, timeouts := 0,
                noAnswer := 0 } }) ∧
    (¬ good → instantiate p = .refused .illegalParams) ∧
    maxDataSize p = p.maxFrameSize - 8 ∧ physMax p = 2 + 2 * (p.maxFrameSize + 3) ∧
    rbCapEff p = max p.rbCap (2 + 2 * (p.maxFrameSize + 3))) ∧
  core.reset = State.reset ∧ instantiate State.reset.params = .next State.reset ∧
  State.reset.params = {
    maxFrameSize := 241, rbCap := 512, fifoCap := 8, oqCap := 8, frameTimeoutMs := 300,
    answerTimeoutMs := Config.answerTimeoutMs.toNat, cooldownMs := Config.cooldownMs.toNat,
    maxRetries := Config.maxRetries.val, windowBase := 0 }

/-- R153, R170: a failed command changes CMD_STATUS and WARN[6] only; a completed one leaves WARN[6] alone, but for
RESET, which clears WARN. -/
def Obligations.FailedCommandHasNoOtherEffect : Prop :=
  ∀ (i : Instr) (s s' : State), exec i s = .next s' →
    (s'.cmdStatus ≠ .ok → s' = { s with cmdStatus := s'.cmdStatus, warn := s.warn ||| 0x40 }) ∧
    (s'.cmdStatus = .ok → i ≠ .reset → s'.warn.getLsbD 6 = s.warn.getLsbD 6)

/-- R153, R154, R163: the code each command reports, by the context and the first test that fails. -/
def Obligations.CommandErrorsByContext : Prop :=
  ∀ (i : Instr) (s s' : State), exec i s = .next s' →
    let d := serialize s.stg.subcmd s.stg.data
    let queued := if d.length > maxDataSize s.params then CmdCode.oversize
      else if s.oq.length = s.params.oqCap then .queueFull else .ok
    s'.cmdStatus = match i with
      | .loop => if s.eng.callout ≠ .none then .busyInCallout else .ok
      | .handlerReturn _ => if s.eng.callout = .none then .notInCallout else .ok
      | .sendMessage _ _ _ => queued
      | .sendMessageNa _ _ => queued
      | .sendAnswer _ m =>
        if s.eng.processing = false then .notInHandler
        else if m = .reserved then .badOperand
        else if d.length > maxDataSize s.params then .oversize else .ok
      | .noAnswer => if s.eng.processing = false then .notInHandler else .ok
      | .stagePush _ => if s.stg.data.length = maxDataSize s.params then .stageFull else .ok
      | .nop => .ok
      | .reset => .ok
      | .crcInit _ => .ok
      | .crcFeed _ => .ok
      | .chkInit _ => .ok
      | .chkFeed _ => .ok
      | .stageClear => .ok
      | .stageSubcmd _ => .ok
      | .stageRetry _ => .ok

/-- R23 to R25, R27 to R32, R34 to R40: each register, counter and flag is written by its own commands only, and no
command but RESET clears a WARN bit or changes IE. CMD_STATUS, which every command writes, is CommandErrorsByContext. -/
def Obligations.RegistersWrittenOnlyByTheirCommands : Prop :=
  ∀ (i : Instr) (s s' : State), exec i s = .next s' → i ≠ .reset →
    (s'.crcAcc ≠ s.crcAcc → (∃ h, i = .crcInit h) ∨ ∃ b, i = .crcFeed b) ∧
    (s'.chkAcc ≠ s.chkAcc → (∃ b, i = .chkInit b) ∨ ∃ b, i = .chkFeed b) ∧
    (s'.stg ≠ s.stg →
      i = .stageClear ∨ (∃ b, i = .stagePush b) ∨ (∃ h, i = .stageSubcmd h) ∨ ∃ t, i = .stageRetry t) ∧
    (s'.evt ≠ s.evt ∨ s'.rb ≠ s.rb ∨ s'.scn ≠ s.scn ∨ s'.fifo ≠ s.fifo ∨ s'.frameErr ≠ s.frameErr ∨
      s'.rxLine ≠ s.rxLine → i = .loop) ∧
    (s'.txLine ≠ s.txLine → i = .loop ∨ ∃ ft m, i = .sendAnswer ft m) ∧
    (s'.oq ≠ s.oq →
      i = .loop ∨ (∃ r, i = .handlerReturn r) ∨ (∃ ft c r, i = .sendMessage ft c r) ∨ ∃ ft c, i = .sendMessageNa ft c) ∧
    (s'.hresult ≠ s.hresult → ∃ r, i = .handlerReturn r) ∧
    (s'.eng.ansBase ≠ s.eng.ansBase ∨ s'.eng.retryBase ≠ s.eng.retryBase ∨ s'.eng.retryWait ≠ s.eng.retryWait ∨
      s'.eng.inUseCrc ≠ s.eng.inUseCrc → i = .loop) ∧
    (s'.eng.lastSend ≠ s.eng.lastSend ∨ s'.eng.coolArmed ≠ s.eng.coolArmed ∨ s'.eng.answerSent ≠ s.eng.answerSent →
      i = .loop ∨ ∃ ft m, i = .sendAnswer ft m) ∧
    (s'.eng.state ≠ s.eng.state ∨ s'.eng.callout ≠ s.eng.callout ∨ s'.eng.processing ≠ s.eng.processing →
      i = .loop ∨ ∃ r, i = .handlerReturn r) ∧
    (s'.eng.noAnswer ≠ s.eng.noAnswer → i = .loop ∨ i = .noAnswer) ∧
    (s'.stat.garbage ≠ s.stat.garbage ∨ s'.stat.frameErrors ≠ s.stat.frameErrors ∨
      s'.stat.rxFrames ≠ s.stat.rxFrames ∨ s'.stat.fifoDrops ≠ s.stat.fifoDrops ∨ s'.stat.shed ≠ s.stat.shed ∨
      s'.stat.timeouts ≠ s.stat.timeouts → i = .loop) ∧
    (s'.stat.txFrames ≠ s.stat.txFrames → i = .loop ∨ ∃ ft m, i = .sendAnswer ft m) ∧
    (s'.stat.noAnswer ≠ s.stat.noAnswer → ∃ r, i = .handlerReturn r) ∧
    (s'.warn.extractLsb' 0 4 ≠ s.warn.extractLsb' 0 4 → i = .loop) ∧
    (s'.warn.extractLsb' 4 2 ≠ s.warn.extractLsb' 4 2 → ∃ r, i = .handlerReturn r) ∧
    (s'.warn.getLsbD 6 ≠ s.warn.getLsbD 6 → s'.cmdStatus ≠ .ok) ∧
    s'.warn &&& s.warn = s.warn ∧
    s'.ie = s.ie ∧ s'.time = s.time ∧ s'.params = s.params ∧ s'.pending = s.pending ∧ s'.hostReads = s.hostReads

/-- R157, R41, R46: after a callout is posted the EVT registers read back its event, the data little-endian in
EVT_DATA_k and 0 past its end, and STATE[2:1] shows the callout, by its number of R27. -/
def Obligations.CalloutEventReadsBack : Prop :=
  let callout := fun c : Callout => match c with
    | .none => (0 : BitVec 2)
    | .message => 1
    | .answer => 2
    | .timeout => 3
  ∀ (kind : Callout) (rt ft : Byte) (c : Bool) (d : List Byte) (t : Word) (s : State), d.length ≤ 255 →
    let s' := postCallout kind rt ft c d t s
    s' = { s with evt := s'.evt, eng := { s.eng with callout := kind } } ∧
    memRead 0x080 s' = (callout kind).setWidth 32 ∧ memRead 0x084 s' = rt.setWidth 32 ∧
    memRead 0x088 s' = ft.setWidth 32 ∧ memRead 0x08C s' = (BitVec.ofBool c).setWidth 32 ∧
    memRead 0x090 s' = BitVec.ofNat 32 d.length ∧ memRead 0x094 s' = t ∧
    (memRead 0x00C s').extractLsb' 1 2 = callout kind ∧
    ∀ k j, k < 64 → j < 4 → (memRead (0x100 + 4 * k) s').extractLsb' (8 * j) 8 = d.getD (4 * k + j) 0

/-- R147, with the registers of R41, IRQ of R162 and the codes of R27, R29, R153, R155 and R156 as numbers: what a read
returns at every offset, field by field, and 0 elsewhere. Each length is stated where it fits in its field, as every length within the bounds of R25 to R31 does. -/
def Obligations.RegisterMapReadsState : Prop :=
  let callout := fun c : Callout => match c with
    | .none => (0 : BitVec 2)
    | .message => 1
    | .answer => 2
    | .timeout => 3
  let phase := fun p : Phase => match p with
    | .sync => (0 : BitVec 2)
    | .header => 1
    | .body => 2
  let cmdCode := fun c : CmdCode => match c with
    | .ok => (0 : Word)
    | .illegalOpcode => 1
    | .badOperand => 2
    | .busyInCallout => 3
    | .notInHandler => 4
    | .notInCallout => 5
    | .stageFull => 6
    | .oversize => 7
    | .queueFull => 8
  let frameErr := fun e : FrameError => match e with
    | .none => (0 : Word)
    | .separatorWrong => 1
    | .headerTooSmall => 2
    | .headerTooBig => 3
    | .frameTooSmall => 4
    | .frameTooBig => 5
    | .dataSizeWrong => 6
    | .checksumWrong => 7
    | .crcWrong => 8
    | .wrongPostByte => 9
    | .unknownData => 10
    | .frameTimeout => 11
  let result := fun r : HandlerResult => match r with
    | .ok => (0 : Word)
    | .unsupportedMessage => 1
    | .unexpectedMessage => 2
    | .unsupportedSubcommand => 3
    | .wrongMessageStructure => 4
    | .invalidAnswer => 5
    | .runtimeError => 6
    | .unknownError => 7
  (∀ (off : Nat) (s : State), memRead off s = memRead (off % 4096 - off % 4) s) ∧
  ∀ s : State,
    let state := memRead 0x00C s
    let levels := memRead 0x028 s
    let info := memRead 0x02C s
    let hdr := memRead 0x030 s
    let stage := memRead 0x038 s
    memRead 0x000 s = 0x48414552 ∧ memRead 0x004 s = 0 ∧
    memRead 0x008 s = cmdCode s.cmdStatus ∧
    ((state.getLsbD 0 = true ↔ s.eng.state = .waiting) ∧ state.extractLsb' 1 2 = callout s.eng.callout ∧
      state.getLsbD 3 = s.eng.processing ∧ state.getLsbD 4 = s.eng.answerSent ∧ state.getLsbD 5 = s.eng.noAnswer ∧
      state.getLsbD 6 = s.eng.inUseCrc ∧ state.getLsbD 7 = s.eng.coolArmed ∧
      state.extractLsb' 8 2 = phase s.scn.phase ∧
      (state.getLsbD 10 = true ↔
        (s.eng.callout ≠ .none ∧ s.ie.getLsbD 0 = true) ∨ (s.warn ≠ 0 ∧ s.ie.getLsbD 1 = true)) ∧
      state.extractLsb' 11 21 = 0) ∧
    memRead 0x010 s = s.warn.setWidth 32 ∧ memRead 0x014 s = s.ie.setWidth 32 ∧ memRead 0x018 s = s.time ∧
    memRead 0x01C s = s.crcAcc.setWidth 32 ∧ memRead 0x020 s = s.chkAcc.setWidth 32 ∧
    memRead 0x024 s = frameErr s.frameErr ∧
    (s.fifo.length < 256 → (levels.extractLsb' 0 8).toNat = s.fifo.length) ∧
    (s.oq.length < 256 → (levels.extractLsb' 8 8).toNat = s.oq.length) ∧
    (s.rb.length < 65536 → (levels.extractLsb' 16 16).toNat = s.rb.length) ∧
    (s.scn.consumed < 65536 → (info.extractLsb' 0 16).toNat = s.scn.consumed) ∧
    (s.scn.asm.length < 512 → (info.extractLsb' 16 9).toNat = s.scn.asm.length) ∧ info.extractLsb' 25 7 = 0 ∧
    (hdr.extractLsb' 0 8 = s.scn.ftype ∧ hdr.extractLsb' 8 8 = s.scn.dataLen ∧ hdr.getLsbD 16 = s.scn.useCrc ∧
      hdr.extractLsb' 17 7 = 0 ∧ hdr.extractLsb' 24 8 = s.scn.esc) ∧
    memRead 0x034 s = s.scn.start ∧
    (s.stg.data.length < 256 → (stage.extractLsb' 0 8).toNat = s.stg.data.length) ∧
    stage.extractLsb' 8 8 = 0 ∧ stage.extractLsb' 16 16 = s.stg.subcmd ∧
    memRead 0x03C s = s.stg.retry.setWidth 32 ∧ memRead 0x040 s = result s.hresult ∧
    (s.oq = [] → memRead 0x044 s = 0) ∧
    (∀ h rest, s.oq = h :: rest →
      let v := memRead 0x044 s
      v.extractLsb' 0 8 = h.ftype ∧ v.extractLsb' 8 8 = h.retries ∧ v.getLsbD 16 = h.expectsAnswer ∧
      v.getLsbD 17 = h.useCrc ∧ v.extractLsb' 18 6 = 0 ∧
      (h.data.length < 256 → (v.extractLsb' 24 8).toNat = h.data.length)) ∧
    memRead 0x048 s = s.eng.lastSend ∧ memRead 0x04C s = s.eng.ansBase ∧ memRead 0x050 s = s.eng.retryBase ∧
    memRead 0x054 s = s.eng.retryWait ∧
    memRead 0x060 s = s.stat.garbage ∧ memRead 0x064 s = s.stat.frameErrors ∧ memRead 0x068 s = s.stat.rxFrames ∧
    memRead 0x06C s = s.stat.fifoDrops ∧ memRead 0x070 s = s.stat.shed ∧ memRead 0x074 s = s.stat.txFrames ∧
    memRead 0x078 s = s.stat.timeouts ∧ memRead 0x07C s = s.stat.noAnswer ∧
    memRead 0x080 s = (callout s.evt.kind).setWidth 32 ∧ memRead 0x084 s = s.evt.reqType.setWidth 32 ∧
    memRead 0x088 s = s.evt.ftype.setWidth 32 ∧ memRead 0x08C s = (BitVec.ofBool s.evt.useCrc).setWidth 32 ∧
    memRead 0x090 s = s.evt.len.setWidth 32 ∧ memRead 0x094 s = s.evt.time ∧
    (∀ k j, k < 64 → j < 4 →
      (memRead (0x100 + 4 * k) s).extractLsb' (8 * j) 8 = s.evt.data.getD (4 * k + j) 0) ∧
    (∀ off, off < 4096 → off % 4 = 0 → (0x058 ≤ off ∧ off < 0x060) ∨ (0x098 ≤ off ∧ off < 0x100) ∨ 0x200 ≤ off →
      memRead off s = 0)

/-- R48: an access's offset counts modulo 4096 with bits [1:0] ignored, for reads and writes. -/
def Obligations.OffsetsWrapAndAlign : Prop :=
  ∀ (off k j : Nat) (v : Word) (s : State), off % 4 = 0 → j < 4 →
    memRead (off + 4096 * k + j) s = memRead off s ∧ memWrite (off + 4096 * k + j) v s = memWrite off v s

/-- R148: what a host write does at every offset: CMD executes, WARN clears the bits written 1, IE is replaced, and
every other offset ignores it. -/
def Obligations.HostWriteEffects : Prop :=
  ∀ (off : Nat) (v : Word) (s : State),
    let a := off % 4096 - off % 4
    (a = 0x004 → memWrite off v s = execute v s) ∧
    (a = 0x010 → memWrite off v s = .next { s with warn := s.warn &&& ~~~(v.extractLsb' 0 7) }) ∧
    (a = 0x014 → memWrite off v s = .next { s with ie := v.extractLsb' 0 2 }) ∧
    (a ≠ 0x004 → a ≠ 0x010 → a ≠ 0x014 → memWrite off v s = .next s)

/-- R49, R147, R149, R150 and logs 4, 5: the steps of the agents other than a write: a read changes no element of the
block, a byte joins RX_LINE, a tick adds one to TIME modulo 2^32, and with no agent about to move nothing changes. -/
def Obligations.EnvironmentSteps : Prop :=
  ∀ (s : State) (rest : List AgentStep),
    (∀ addr, s.pending = .hostRead addr :: rest → step s = .next { s with
      pending := rest
      hostReads := s.hostReads ++ [memRead (addr - s.params.windowBase).toNat { s with pending := rest }] }) ∧
    (∀ x, s.pending = .rxArrive x :: rest → step s = .next { s with pending := rest, rxLine := s.rxLine ++ [x] }) ∧
    (s.pending = .tick :: rest →
      step s = .next { s with pending := rest, time := BitVec.ofNat 32 ((s.time.toNat + 1) % 2 ^ 32) }) ∧
    (s.pending = [] → step s = .next s)

/-! ### The machine as a whole -/

/-- R169, R171 with the parameters of logs 2 and 3: the reset state meets the invariant, whatever the OPEN parameters. -/
def Obligations.ResetMeetsInvariant : Prop :=
  MachineInv State.reset

/-- R27, R28 to R32, R155: every step keeps the invariant of Safety: the queue and buffer bounds, the invariant of R27,
the open attempt as the unstuffed front of RB, EVT as the held callout's event, and only frame errors of the line. -/
def Obligations.StepKeepsInvariant : Prop :=
  ∀ s s' : State, MachineInv s → step s = .next s' → MachineInv s'

/-- 60_exceptions.md, opening ("There is no unrecoverable error path"), R81: from a state that meets the invariant every
step goes on: no fault, no refusal. -/
def Obligations.InvariantStatesNeverStop : Prop :=
  ∀ s : State, MachineInv s → SafeStep s
end

