-- ==== Sys2Proof/Laws/State.lean ====
section
/-! SUPPORT. One lemma per field per update of State, true by rfl, so that no proof unfolds an update. -/

namespace Sys2Proof.Machine

/-! ### cmdOk -/

@[simp] theorem cmdOk_time (s : State) :
    (cmdOk s).time = s.time := rfl
@[simp] theorem cmdOk_crcAcc (s : State) :
    (cmdOk s).crcAcc = s.crcAcc := rfl
@[simp] theorem cmdOk_chkAcc (s : State) :
    (cmdOk s).chkAcc = s.chkAcc := rfl
@[simp] theorem cmdOk_rb (s : State) :
    (cmdOk s).rb = s.rb := rfl
@[simp] theorem cmdOk_scn (s : State) :
    (cmdOk s).scn = s.scn := rfl
@[simp] theorem cmdOk_fifo (s : State) :
    (cmdOk s).fifo = s.fifo := rfl
@[simp] theorem cmdOk_oq (s : State) :
    (cmdOk s).oq = s.oq := rfl
@[simp] theorem cmdOk_eng (s : State) :
    (cmdOk s).eng = s.eng := rfl
@[simp] theorem cmdOk_evt (s : State) :
    (cmdOk s).evt = s.evt := rfl
@[simp] theorem cmdOk_stg (s : State) :
    (cmdOk s).stg = s.stg := rfl
@[simp] theorem cmdOk_cmdStatus (s : State) :
    (cmdOk s).cmdStatus = .ok := rfl
@[simp] theorem cmdOk_warn (s : State) :
    (cmdOk s).warn = s.warn := rfl
@[simp] theorem cmdOk_ie (s : State) :
    (cmdOk s).ie = s.ie := rfl
@[simp] theorem cmdOk_frameErr (s : State) :
    (cmdOk s).frameErr = s.frameErr := rfl
@[simp] theorem cmdOk_hresult (s : State) :
    (cmdOk s).hresult = s.hresult := rfl
@[simp] theorem cmdOk_stat (s : State) :
    (cmdOk s).stat = s.stat := rfl
@[simp] theorem cmdOk_rxLine (s : State) :
    (cmdOk s).rxLine = s.rxLine := rfl
@[simp] theorem cmdOk_txLine (s : State) :
    (cmdOk s).txLine = s.txLine := rfl
@[simp] theorem cmdOk_params (s : State) :
    (cmdOk s).params = s.params := rfl
@[simp] theorem cmdOk_pending (s : State) :
    (cmdOk s).pending = s.pending := rfl
@[simp] theorem cmdOk_hostReads (s : State) :
    (cmdOk s).hostReads = s.hostReads := rfl

/-! ### cmdFail -/

@[simp] theorem cmdFail_time (c : CmdCode) (s : State) :
    (cmdFail c s).time = s.time := rfl
@[simp] theorem cmdFail_crcAcc (c : CmdCode) (s : State) :
    (cmdFail c s).crcAcc = s.crcAcc := rfl
@[simp] theorem cmdFail_chkAcc (c : CmdCode) (s : State) :
    (cmdFail c s).chkAcc = s.chkAcc := rfl
@[simp] theorem cmdFail_rb (c : CmdCode) (s : State) :
    (cmdFail c s).rb = s.rb := rfl
@[simp] theorem cmdFail_scn (c : CmdCode) (s : State) :
    (cmdFail c s).scn = s.scn := rfl
@[simp] theorem cmdFail_fifo (c : CmdCode) (s : State) :
    (cmdFail c s).fifo = s.fifo := rfl
@[simp] theorem cmdFail_oq (c : CmdCode) (s : State) :
    (cmdFail c s).oq = s.oq := rfl
@[simp] theorem cmdFail_eng (c : CmdCode) (s : State) :
    (cmdFail c s).eng = s.eng := rfl
@[simp] theorem cmdFail_evt (c : CmdCode) (s : State) :
    (cmdFail c s).evt = s.evt := rfl
@[simp] theorem cmdFail_stg (c : CmdCode) (s : State) :
    (cmdFail c s).stg = s.stg := rfl
@[simp] theorem cmdFail_cmdStatus (c : CmdCode) (s : State) :
    (cmdFail c s).cmdStatus = c := rfl
@[simp] theorem cmdFail_warn (c : CmdCode) (s : State) :
    (cmdFail c s).warn = s.warn ||| warnCmdErr := rfl
@[simp] theorem cmdFail_ie (c : CmdCode) (s : State) :
    (cmdFail c s).ie = s.ie := rfl
@[simp] theorem cmdFail_frameErr (c : CmdCode) (s : State) :
    (cmdFail c s).frameErr = s.frameErr := rfl
@[simp] theorem cmdFail_hresult (c : CmdCode) (s : State) :
    (cmdFail c s).hresult = s.hresult := rfl
@[simp] theorem cmdFail_stat (c : CmdCode) (s : State) :
    (cmdFail c s).stat = s.stat := rfl
@[simp] theorem cmdFail_rxLine (c : CmdCode) (s : State) :
    (cmdFail c s).rxLine = s.rxLine := rfl
@[simp] theorem cmdFail_txLine (c : CmdCode) (s : State) :
    (cmdFail c s).txLine = s.txLine := rfl
@[simp] theorem cmdFail_params (c : CmdCode) (s : State) :
    (cmdFail c s).params = s.params := rfl
@[simp] theorem cmdFail_pending (c : CmdCode) (s : State) :
    (cmdFail c s).pending = s.pending := rfl
@[simp] theorem cmdFail_hostReads (c : CmdCode) (s : State) :
    (cmdFail c s).hostReads = s.hostReads := rfl

/-! ### setWarn -/

@[simp] theorem setWarn_time (m : BitVec 7) (s : State) :
    (setWarn m s).time = s.time := rfl
@[simp] theorem setWarn_crcAcc (m : BitVec 7) (s : State) :
    (setWarn m s).crcAcc = s.crcAcc := rfl
@[simp] theorem setWarn_chkAcc (m : BitVec 7) (s : State) :
    (setWarn m s).chkAcc = s.chkAcc := rfl
@[simp] theorem setWarn_rb (m : BitVec 7) (s : State) :
    (setWarn m s).rb = s.rb := rfl
@[simp] theorem setWarn_scn (m : BitVec 7) (s : State) :
    (setWarn m s).scn = s.scn := rfl
@[simp] theorem setWarn_fifo (m : BitVec 7) (s : State) :
    (setWarn m s).fifo = s.fifo := rfl
@[simp] theorem setWarn_oq (m : BitVec 7) (s : State) :
    (setWarn m s).oq = s.oq := rfl
@[simp] theorem setWarn_eng (m : BitVec 7) (s : State) :
    (setWarn m s).eng = s.eng := rfl
@[simp] theorem setWarn_evt (m : BitVec 7) (s : State) :
    (setWarn m s).evt = s.evt := rfl
@[simp] theorem setWarn_stg (m : BitVec 7) (s : State) :
    (setWarn m s).stg = s.stg := rfl
@[simp] theorem setWarn_cmdStatus (m : BitVec 7) (s : State) :
    (setWarn m s).cmdStatus = s.cmdStatus := rfl
@[simp] theorem setWarn_warn (m : BitVec 7) (s : State) :
    (setWarn m s).warn = s.warn ||| m := rfl
@[simp] theorem setWarn_ie (m : BitVec 7) (s : State) :
    (setWarn m s).ie = s.ie := rfl
@[simp] theorem setWarn_frameErr (m : BitVec 7) (s : State) :
    (setWarn m s).frameErr = s.frameErr := rfl
@[simp] theorem setWarn_hresult (m : BitVec 7) (s : State) :
    (setWarn m s).hresult = s.hresult := rfl
@[simp] theorem setWarn_stat (m : BitVec 7) (s : State) :
    (setWarn m s).stat = s.stat := rfl
@[simp] theorem setWarn_rxLine (m : BitVec 7) (s : State) :
    (setWarn m s).rxLine = s.rxLine := rfl
@[simp] theorem setWarn_txLine (m : BitVec 7) (s : State) :
    (setWarn m s).txLine = s.txLine := rfl
@[simp] theorem setWarn_params (m : BitVec 7) (s : State) :
    (setWarn m s).params = s.params := rfl
@[simp] theorem setWarn_pending (m : BitVec 7) (s : State) :
    (setWarn m s).pending = s.pending := rfl
@[simp] theorem setWarn_hostReads (m : BitVec 7) (s : State) :
    (setWarn m s).hostReads = s.hostReads := rfl

/-! ### mapStat -/

@[simp] theorem mapStat_time (f : Stats → Stats) (s : State) :
    (mapStat f s).time = s.time := rfl
@[simp] theorem mapStat_crcAcc (f : Stats → Stats) (s : State) :
    (mapStat f s).crcAcc = s.crcAcc := rfl
@[simp] theorem mapStat_chkAcc (f : Stats → Stats) (s : State) :
    (mapStat f s).chkAcc = s.chkAcc := rfl
@[simp] theorem mapStat_rb (f : Stats → Stats) (s : State) :
    (mapStat f s).rb = s.rb := rfl
@[simp] theorem mapStat_scn (f : Stats → Stats) (s : State) :
    (mapStat f s).scn = s.scn := rfl
@[simp] theorem mapStat_fifo (f : Stats → Stats) (s : State) :
    (mapStat f s).fifo = s.fifo := rfl
@[simp] theorem mapStat_oq (f : Stats → Stats) (s : State) :
    (mapStat f s).oq = s.oq := rfl
@[simp] theorem mapStat_eng (f : Stats → Stats) (s : State) :
    (mapStat f s).eng = s.eng := rfl
@[simp] theorem mapStat_evt (f : Stats → Stats) (s : State) :
    (mapStat f s).evt = s.evt := rfl
@[simp] theorem mapStat_stg (f : Stats → Stats) (s : State) :
    (mapStat f s).stg = s.stg := rfl
@[simp] theorem mapStat_cmdStatus (f : Stats → Stats) (s : State) :
    (mapStat f s).cmdStatus = s.cmdStatus := rfl
@[simp] theorem mapStat_warn (f : Stats → Stats) (s : State) :
    (mapStat f s).warn = s.warn := rfl
@[simp] theorem mapStat_ie (f : Stats → Stats) (s : State) :
    (mapStat f s).ie = s.ie := rfl
@[simp] theorem mapStat_frameErr (f : Stats → Stats) (s : State) :
    (mapStat f s).frameErr = s.frameErr := rfl
@[simp] theorem mapStat_hresult (f : Stats → Stats) (s : State) :
    (mapStat f s).hresult = s.hresult := rfl
@[simp] theorem mapStat_stat (f : Stats → Stats) (s : State) :
    (mapStat f s).stat = f s.stat := rfl
@[simp] theorem mapStat_rxLine (f : Stats → Stats) (s : State) :
    (mapStat f s).rxLine = s.rxLine := rfl
@[simp] theorem mapStat_txLine (f : Stats → Stats) (s : State) :
    (mapStat f s).txLine = s.txLine := rfl
@[simp] theorem mapStat_params (f : Stats → Stats) (s : State) :
    (mapStat f s).params = s.params := rfl
@[simp] theorem mapStat_pending (f : Stats → Stats) (s : State) :
    (mapStat f s).pending = s.pending := rfl
@[simp] theorem mapStat_hostReads (f : Stats → Stats) (s : State) :
    (mapStat f s).hostReads = s.hostReads := rfl

/-! ### txWrite -/

@[simp] theorem txWrite_time (bs : List Byte) (s : State) :
    (txWrite bs s).time = s.time := rfl
@[simp] theorem txWrite_crcAcc (bs : List Byte) (s : State) :
    (txWrite bs s).crcAcc = s.crcAcc := rfl
@[simp] theorem txWrite_chkAcc (bs : List Byte) (s : State) :
    (txWrite bs s).chkAcc = s.chkAcc := rfl
@[simp] theorem txWrite_rb (bs : List Byte) (s : State) :
    (txWrite bs s).rb = s.rb := rfl
@[simp] theorem txWrite_scn (bs : List Byte) (s : State) :
    (txWrite bs s).scn = s.scn := rfl
@[simp] theorem txWrite_fifo (bs : List Byte) (s : State) :
    (txWrite bs s).fifo = s.fifo := rfl
@[simp] theorem txWrite_oq (bs : List Byte) (s : State) :
    (txWrite bs s).oq = s.oq := rfl
@[simp] theorem txWrite_eng (bs : List Byte) (s : State) :
    (txWrite bs s).eng = s.eng := rfl
@[simp] theorem txWrite_evt (bs : List Byte) (s : State) :
    (txWrite bs s).evt = s.evt := rfl
@[simp] theorem txWrite_stg (bs : List Byte) (s : State) :
    (txWrite bs s).stg = s.stg := rfl
@[simp] theorem txWrite_cmdStatus (bs : List Byte) (s : State) :
    (txWrite bs s).cmdStatus = s.cmdStatus := rfl
@[simp] theorem txWrite_warn (bs : List Byte) (s : State) :
    (txWrite bs s).warn = s.warn := rfl
@[simp] theorem txWrite_ie (bs : List Byte) (s : State) :
    (txWrite bs s).ie = s.ie := rfl
@[simp] theorem txWrite_frameErr (bs : List Byte) (s : State) :
    (txWrite bs s).frameErr = s.frameErr := rfl
@[simp] theorem txWrite_hresult (bs : List Byte) (s : State) :
    (txWrite bs s).hresult = s.hresult := rfl
@[simp] theorem txWrite_stat (bs : List Byte) (s : State) :
    (txWrite bs s).stat = s.stat := rfl
@[simp] theorem txWrite_rxLine (bs : List Byte) (s : State) :
    (txWrite bs s).rxLine = s.rxLine := rfl
@[simp] theorem txWrite_txLine (bs : List Byte) (s : State) :
    (txWrite bs s).txLine = s.txLine ++ bs := rfl
@[simp] theorem txWrite_params (bs : List Byte) (s : State) :
    (txWrite bs s).params = s.params := rfl
@[simp] theorem txWrite_pending (bs : List Byte) (s : State) :
    (txWrite bs s).pending = s.pending := rfl
@[simp] theorem txWrite_hostReads (bs : List Byte) (s : State) :
    (txWrite bs s).hostReads = s.hostReads := rfl

/-! ### resetSync -/

@[simp] theorem resetSync_time (s : State) :
    (resetSync s).time = s.time := rfl
@[simp] theorem resetSync_crcAcc (s : State) :
    (resetSync s).crcAcc = s.crcAcc := rfl
@[simp] theorem resetSync_chkAcc (s : State) :
    (resetSync s).chkAcc = s.chkAcc := rfl
@[simp] theorem resetSync_rb (s : State) :
    (resetSync s).rb = s.rb := rfl
@[simp] theorem resetSync_scn (s : State) :
    (resetSync s).scn = Scanner.idle := rfl
@[simp] theorem resetSync_fifo (s : State) :
    (resetSync s).fifo = s.fifo := rfl
@[simp] theorem resetSync_oq (s : State) :
    (resetSync s).oq = s.oq := rfl
@[simp] theorem resetSync_eng (s : State) :
    (resetSync s).eng = s.eng := rfl
@[simp] theorem resetSync_evt (s : State) :
    (resetSync s).evt = s.evt := rfl
@[simp] theorem resetSync_stg (s : State) :
    (resetSync s).stg = s.stg := rfl
@[simp] theorem resetSync_cmdStatus (s : State) :
    (resetSync s).cmdStatus = s.cmdStatus := rfl
@[simp] theorem resetSync_warn (s : State) :
    (resetSync s).warn = s.warn := rfl
@[simp] theorem resetSync_ie (s : State) :
    (resetSync s).ie = s.ie := rfl
@[simp] theorem resetSync_frameErr (s : State) :
    (resetSync s).frameErr = s.frameErr := rfl
@[simp] theorem resetSync_hresult (s : State) :
    (resetSync s).hresult = s.hresult := rfl
@[simp] theorem resetSync_stat (s : State) :
    (resetSync s).stat = s.stat := rfl
@[simp] theorem resetSync_rxLine (s : State) :
    (resetSync s).rxLine = s.rxLine := rfl
@[simp] theorem resetSync_txLine (s : State) :
    (resetSync s).txLine = s.txLine := rfl
@[simp] theorem resetSync_params (s : State) :
    (resetSync s).params = s.params := rfl
@[simp] theorem resetSync_pending (s : State) :
    (resetSync s).pending = s.pending := rfl
@[simp] theorem resetSync_hostReads (s : State) :
    (resetSync s).hostReads = s.hostReads := rfl

/-! ### oqPop -/

@[simp] theorem oqPop_time (s : State) :
    (oqPop s).time = s.time := rfl
@[simp] theorem oqPop_crcAcc (s : State) :
    (oqPop s).crcAcc = s.crcAcc := rfl
@[simp] theorem oqPop_chkAcc (s : State) :
    (oqPop s).chkAcc = s.chkAcc := rfl
@[simp] theorem oqPop_rb (s : State) :
    (oqPop s).rb = s.rb := rfl
@[simp] theorem oqPop_scn (s : State) :
    (oqPop s).scn = s.scn := rfl
@[simp] theorem oqPop_fifo (s : State) :
    (oqPop s).fifo = s.fifo := rfl
@[simp] theorem oqPop_oq (s : State) :
    (oqPop s).oq = s.oq.drop 1 := rfl
@[simp] theorem oqPop_eng (s : State) :
    (oqPop s).eng = s.eng := rfl
@[simp] theorem oqPop_evt (s : State) :
    (oqPop s).evt = s.evt := rfl
@[simp] theorem oqPop_stg (s : State) :
    (oqPop s).stg = s.stg := rfl
@[simp] theorem oqPop_cmdStatus (s : State) :
    (oqPop s).cmdStatus = s.cmdStatus := rfl
@[simp] theorem oqPop_warn (s : State) :
    (oqPop s).warn = s.warn := rfl
@[simp] theorem oqPop_ie (s : State) :
    (oqPop s).ie = s.ie := rfl
@[simp] theorem oqPop_frameErr (s : State) :
    (oqPop s).frameErr = s.frameErr := rfl
@[simp] theorem oqPop_hresult (s : State) :
    (oqPop s).hresult = s.hresult := rfl
@[simp] theorem oqPop_stat (s : State) :
    (oqPop s).stat = s.stat := rfl
@[simp] theorem oqPop_rxLine (s : State) :
    (oqPop s).rxLine = s.rxLine := rfl
@[simp] theorem oqPop_txLine (s : State) :
    (oqPop s).txLine = s.txLine := rfl
@[simp] theorem oqPop_params (s : State) :
    (oqPop s).params = s.params := rfl
@[simp] theorem oqPop_pending (s : State) :
    (oqPop s).pending = s.pending := rfl
@[simp] theorem oqPop_hostReads (s : State) :
    (oqPop s).hostReads = s.hostReads := rfl

/-! ### postCallout -/

@[simp] theorem postCallout_time (k : Callout) (rt ft : Byte) (c : Bool) (d : List Byte) (t : Word) (s : State) :
    (postCallout k rt ft c d t s).time = s.time := rfl
@[simp] theorem postCallout_crcAcc (k : Callout) (rt ft : Byte) (c : Bool) (d : List Byte) (t : Word) (s : State) :
    (postCallout k rt ft c d t s).crcAcc = s.crcAcc := rfl
@[simp] theorem postCallout_chkAcc (k : Callout) (rt ft : Byte) (c : Bool) (d : List Byte) (t : Word) (s : State) :
    (postCallout k rt ft c d t s).chkAcc = s.chkAcc := rfl
@[simp] theorem postCallout_rb (k : Callout) (rt ft : Byte) (c : Bool) (d : List Byte) (t : Word) (s : State) :
    (postCallout k rt ft c d t s).rb = s.rb := rfl
@[simp] theorem postCallout_scn (k : Callout) (rt ft : Byte) (c : Bool) (d : List Byte) (t : Word) (s : State) :
    (postCallout k rt ft c d t s).scn = s.scn := rfl
@[simp] theorem postCallout_fifo (k : Callout) (rt ft : Byte) (c : Bool) (d : List Byte) (t : Word) (s : State) :
    (postCallout k rt ft c d t s).fifo = s.fifo := rfl
@[simp] theorem postCallout_oq (k : Callout) (rt ft : Byte) (c : Bool) (d : List Byte) (t : Word) (s : State) :
    (postCallout k rt ft c d t s).oq = s.oq := rfl
@[simp] theorem postCallout_eng (k : Callout) (rt ft : Byte) (c : Bool) (d : List Byte) (t : Word) (s : State) :
    (postCallout k rt ft c d t s).eng = { s.eng with callout := k } := rfl
@[simp] theorem postCallout_evt (k : Callout) (rt ft : Byte) (c : Bool) (d : List Byte) (t : Word) (s : State) :
    (postCallout k rt ft c d t s).evt = { kind := k, reqType := rt, ftype := ft, useCrc := c, len := BitVec.ofNat 8 d.length, time := t, data := d ++ List.replicate (256 - d.length) 0 } := rfl
@[simp] theorem postCallout_stg (k : Callout) (rt ft : Byte) (c : Bool) (d : List Byte) (t : Word) (s : State) :
    (postCallout k rt ft c d t s).stg = s.stg := rfl
@[simp] theorem postCallout_cmdStatus (k : Callout) (rt ft : Byte) (c : Bool) (d : List Byte) (t : Word) (s : State) :
    (postCallout k rt ft c d t s).cmdStatus = s.cmdStatus := rfl
@[simp] theorem postCallout_warn (k : Callout) (rt ft : Byte) (c : Bool) (d : List Byte) (t : Word) (s : State) :
    (postCallout k rt ft c d t s).warn = s.warn := rfl
@[simp] theorem postCallout_ie (k : Callout) (rt ft : Byte) (c : Bool) (d : List Byte) (t : Word) (s : State) :
    (postCallout k rt ft c d t s).ie = s.ie := rfl
@[simp] theorem postCallout_frameErr (k : Callout) (rt ft : Byte) (c : Bool) (d : List Byte) (t : Word) (s : State) :
    (postCallout k rt ft c d t s).frameErr = s.frameErr := rfl
@[simp] theorem postCallout_hresult (k : Callout) (rt ft : Byte) (c : Bool) (d : List Byte) (t : Word) (s : State) :
    (postCallout k rt ft c d t s).hresult = s.hresult := rfl
@[simp] theorem postCallout_stat (k : Callout) (rt ft : Byte) (c : Bool) (d : List Byte) (t : Word) (s : State) :
    (postCallout k rt ft c d t s).stat = s.stat := rfl
@[simp] theorem postCallout_rxLine (k : Callout) (rt ft : Byte) (c : Bool) (d : List Byte) (t : Word) (s : State) :
    (postCallout k rt ft c d t s).rxLine = s.rxLine := rfl
@[simp] theorem postCallout_txLine (k : Callout) (rt ft : Byte) (c : Bool) (d : List Byte) (t : Word) (s : State) :
    (postCallout k rt ft c d t s).txLine = s.txLine := rfl
@[simp] theorem postCallout_params (k : Callout) (rt ft : Byte) (c : Bool) (d : List Byte) (t : Word) (s : State) :
    (postCallout k rt ft c d t s).params = s.params := rfl
@[simp] theorem postCallout_pending (k : Callout) (rt ft : Byte) (c : Bool) (d : List Byte) (t : Word) (s : State) :
    (postCallout k rt ft c d t s).pending = s.pending := rfl
@[simp] theorem postCallout_hostReads (k : Callout) (rt ft : Byte) (c : Bool) (d : List Byte) (t : Word) (s : State) :
    (postCallout k rt ft c d t s).hostReads = s.hostReads := rfl

/-! ### lock -/

@[simp] theorem lock_time (now : Word) (s : State) :
    (lock now s).time = s.time := rfl
@[simp] theorem lock_crcAcc (now : Word) (s : State) :
    (lock now s).crcAcc = s.crcAcc := rfl
@[simp] theorem lock_chkAcc (now : Word) (s : State) :
    (lock now s).chkAcc = s.chkAcc := rfl
@[simp] theorem lock_rb (now : Word) (s : State) :
    (lock now s).rb = s.rb := rfl
@[simp] theorem lock_scn (now : Word) (s : State) :
    (lock now s).scn = { phase := .header, consumed := 2, asm := [sep, sep], esc := 0, start := now, useCrc := false, ftype := 0, dataLen := 0 } := rfl
@[simp] theorem lock_fifo (now : Word) (s : State) :
    (lock now s).fifo = s.fifo := rfl
@[simp] theorem lock_oq (now : Word) (s : State) :
    (lock now s).oq = s.oq := rfl
@[simp] theorem lock_eng (now : Word) (s : State) :
    (lock now s).eng = s.eng := rfl
@[simp] theorem lock_evt (now : Word) (s : State) :
    (lock now s).evt = s.evt := rfl
@[simp] theorem lock_stg (now : Word) (s : State) :
    (lock now s).stg = s.stg := rfl
@[simp] theorem lock_cmdStatus (now : Word) (s : State) :
    (lock now s).cmdStatus = s.cmdStatus := rfl
@[simp] theorem lock_warn (now : Word) (s : State) :
    (lock now s).warn = s.warn := rfl
@[simp] theorem lock_ie (now : Word) (s : State) :
    (lock now s).ie = s.ie := rfl
@[simp] theorem lock_frameErr (now : Word) (s : State) :
    (lock now s).frameErr = s.frameErr := rfl
@[simp] theorem lock_hresult (now : Word) (s : State) :
    (lock now s).hresult = s.hresult := rfl
@[simp] theorem lock_stat (now : Word) (s : State) :
    (lock now s).stat = s.stat := rfl
@[simp] theorem lock_rxLine (now : Word) (s : State) :
    (lock now s).rxLine = s.rxLine := rfl
@[simp] theorem lock_txLine (now : Word) (s : State) :
    (lock now s).txLine = s.txLine := rfl
@[simp] theorem lock_params (now : Word) (s : State) :
    (lock now s).params = s.params := rfl
@[simp] theorem lock_pending (now : Word) (s : State) :
    (lock now s).pending = s.pending := rfl
@[simp] theorem lock_hostReads (now : Word) (s : State) :
    (lock now s).hostReads = s.hostReads := rfl

/-! ### resetState -/

@[simp] theorem resetState_time (s : State) :
    (resetState s).time = s.time := rfl
@[simp] theorem resetState_crcAcc (s : State) :
    (resetState s).crcAcc = 0 := rfl
@[simp] theorem resetState_chkAcc (s : State) :
    (resetState s).chkAcc = 0 := rfl
@[simp] theorem resetState_rb (s : State) :
    (resetState s).rb = [] := rfl
@[simp] theorem resetState_scn (s : State) :
    (resetState s).scn = Scanner.idle := rfl
@[simp] theorem resetState_fifo (s : State) :
    (resetState s).fifo = [] := rfl
@[simp] theorem resetState_oq (s : State) :
    (resetState s).oq = [] := rfl
@[simp] theorem resetState_eng (s : State) :
    (resetState s).eng = Engine.zero := rfl
@[simp] theorem resetState_evt (s : State) :
    (resetState s).evt = Event.zero := rfl
@[simp] theorem resetState_stg (s : State) :
    (resetState s).stg = Staging.zero := rfl
@[simp] theorem resetState_cmdStatus (s : State) :
    (resetState s).cmdStatus = .ok := rfl
@[simp] theorem resetState_warn (s : State) :
    (resetState s).warn = 0 := rfl
@[simp] theorem resetState_ie (s : State) :
    (resetState s).ie = 0 := rfl
@[simp] theorem resetState_frameErr (s : State) :
    (resetState s).frameErr = .none := rfl
@[simp] theorem resetState_hresult (s : State) :
    (resetState s).hresult = .ok := rfl
@[simp] theorem resetState_stat (s : State) :
    (resetState s).stat = Stats.zero := rfl
@[simp] theorem resetState_rxLine (s : State) :
    (resetState s).rxLine = s.rxLine := rfl
@[simp] theorem resetState_txLine (s : State) :
    (resetState s).txLine = s.txLine := rfl
@[simp] theorem resetState_params (s : State) :
    (resetState s).params = s.params := rfl
@[simp] theorem resetState_pending (s : State) :
    (resetState s).pending = s.pending := rfl
@[simp] theorem resetState_hostReads (s : State) :
    (resetState s).hostReads = s.hostReads := rfl

end Sys2Proof.Machine
end

