-- ==== Sys2Proof/Laws/Ops.lean ====
section
/-! SUPPORT. For each shared operation one lemma that says all it does, as one record update. -/

namespace Sys2Proof.Machine

/-! ### Queues -/

theorem rbDrop_eq (n : Nat) (s : State) :
    rbDrop n s = (min n s.rb.length, { s with rb := s.rb.drop n }) := by
  have h : s.rb.drop (min n s.rb.length) = s.rb.drop n := by
    rcases Nat.le_total n s.rb.length with h | h
    · rw [Nat.min_eq_left h]
    · rw [Nat.min_eq_right h, List.drop_eq_nil_of_le (Nat.le_refl _), List.drop_eq_nil_of_le h]
  simp [rbDrop, h]

theorem rbPushSlice_eq (bs : List Byte) (s : State) :
    rbPushSlice bs s = (min bs.length (rbFree s), { s with rb := s.rb ++ bs.take (rbFree s) }) := by
  have h : bs.take (min bs.length (rbFree s)) = bs.take (rbFree s) := by
    rcases Nat.le_total bs.length (rbFree s) with h | h
    · rw [Nat.min_eq_left h, List.take_of_length_le (Nat.le_refl _), List.take_of_length_le h]
    · rw [Nat.min_eq_right h]
  simp [rbPushSlice, h]

theorem rbPush_full {x : Byte} {s : State} (h : s.rb.length = rbCapEff s.params) : rbPush x s = (0, s) := by
  simp [rbPush, h]

theorem rbPush_room {x : Byte} {s : State} (h : s.rb.length ≠ rbCapEff s.params) :
    rbPush x s = (1, { s with rb := s.rb ++ [x] }) := by
  simp [rbPush, h]

theorem rbPop_eq (n : Nat) (s : State) :
    rbPop n s = (s.rb.take n, min n s.rb.length, { s with rb := s.rb.drop n }) := by
  rcases Nat.le_total n s.rb.length with h | h
  · simp [rbPop, Nat.min_eq_left h]
  · simp [rbPop, Nat.min_eq_right h, List.take_of_length_le h, List.drop_eq_nil_of_le h]

/-- What is reserved fits. -/
theorem rbReserve_le (want : Nat) (s : State) : rbReserve want s ≤ want ∧ rbReserve want s ≤ rbFree s :=
  ⟨Nat.min_le_left _ _, Nat.min_le_right _ _⟩

theorem rbPeek_of_lt {k : Nat} {s : State} (h : k < s.rb.length) : rbPeek k s = .ok s.rb[k] := by
  simp [rbPeek, h]

theorem rbPeek_of_ge {k : Nat} {s : State} (h : s.rb.length ≤ k) : rbPeek k s = .error .rbPeekRange := by
  simp [rbPeek, h]

theorem fifoPush_full {f : RxFrame} {s : State} (h : s.fifo.length = s.params.fifoCap) :
    fifoPush f s = { s with
      fifo := s.fifo.drop 1 ++ [f]
      stat := { s.stat with fifoDrops := s.stat.fifoDrops + 1 }
      warn := s.warn ||| warnFifoOverflow } := by
  simp [fifoPush, h, setWarn, addFifoDrop, mapStat]

theorem fifoPush_room {f : RxFrame} {s : State} (h : s.fifo.length ≠ s.params.fifoCap) :
    fifoPush f s = { s with fifo := s.fifo ++ [f] } := by
  simp [fifoPush, h]

theorem fifoDrop_eq (n : Nat) (s : State) :
    fifoDrop n s = (min n s.fifo.length, { s with fifo := s.fifo.drop n }) := by
  have h : s.fifo.drop (min n s.fifo.length) = s.fifo.drop n := by
    rcases Nat.le_total n s.fifo.length with h | h
    · rw [Nat.min_eq_left h]
    · rw [Nat.min_eq_right h, List.drop_eq_nil_of_le (Nat.le_refl _), List.drop_eq_nil_of_le h]
  simp [fifoDrop, h]

theorem fifoPop_nil {s : State} (h : s.fifo = []) : fifoPop s = (none, s) := by
  simp [fifoPop, h]

theorem fifoPop_cons {f : RxFrame} {rest : List RxFrame} {s : State} (h : s.fifo = f :: rest) :
    fifoPop s = (some f, { s with fifo := rest }) := by
  simp [fifoPop, h]

theorem oqEnqueue_full {item : OutItem} {s : State} (h : s.oq.length = s.params.oqCap) :
    oqEnqueue item s = (false, s) := by
  simp [oqEnqueue, h]

theorem oqEnqueue_room {item : OutItem} {s : State} (h : s.oq.length ≠ s.params.oqCap) :
    oqEnqueue item s = (true, { s with oq := s.oq ++ [item] }) := by
  simp [oqEnqueue, h]

theorem oqDecHead_cons {h : OutItem} {rest : List OutItem} {s : State} (e : s.oq = h :: rest) :
    oqDecHead s = { s with oq := { h with retries := h.retries - 1 } :: rest } := by
  simp [oqDecHead, e]

/-- A posted callout changes EVT and ENG.callout, no more. -/
theorem postCallout_frame (kind : Callout) (rt ft : Byte) (c : Bool) (d : List Byte) (t : Word) (s : State) :
    postCallout kind rt ft c d t s =
      { s with evt := (postCallout kind rt ft c d t s).evt, eng := { s.eng with callout := kind } } := rfl

/-! ### Commands -/

theorem enqueueItem_oversize {item : OutItem} {s : State} (h : maxDataSize s.params < item.data.length) :
    enqueueItem item s = cmdFail .oversize s := by
  simp [enqueueItem, h]

theorem enqueueItem_full {item : OutItem} {s : State} (h : item.data.length ≤ maxDataSize s.params)
    (hf : s.oq.length = s.params.oqCap) : enqueueItem item s = cmdFail .queueFull s := by
  simp [enqueueItem, Nat.not_lt.mpr h, oqEnqueue_full hf]

theorem enqueueItem_room {item : OutItem} {s : State} (h : item.data.length ≤ maxDataSize s.params)
    (hf : s.oq.length ≠ s.params.oqCap) :
    enqueueItem item s = { s with oq := s.oq ++ [item], cmdStatus := .ok } := by
  simp [enqueueItem, Nat.not_lt.mpr h, oqEnqueue_room hf, cmdOk]

theorem cmdFail_eq (c : CmdCode) (s : State) :
    cmdFail c s = { s with cmdStatus := c, warn := s.warn ||| warnCmdErr } := rfl

/-- What the return from a callout may change: OQ, ENG, HRESULT, WARN and STAT, no more. -/
theorem calloutReturn_frame (res : HandlerResult) (s : State) :
    ∃ oq eng warn stat, calloutReturn res s =
      { s with oq := oq, eng := eng, hresult := res, warn := warn, stat := stat } ∧
      s.warn &&& warn = s.warn ∧ warn.getLsbD 6 = s.warn.getLsbD 6 ∧ (oq = s.oq ∨ oq = s.oq.drop 1) := by
  have absorb : ∀ a b c : BitVec 7, a &&& (a ||| b ||| c) = a := by
    intro a b c; ext k; simp; intro h; simp [h]
  have absorb1 : ∀ a b : BitVec 7, a &&& (a ||| b) = a := by
    intro a b; ext k; simp; intro h; simp [h]
  unfold calloutReturn noAnswerCheck
  rcases hc : s.eng.callout with _ | _ | _ | _ <;> by_cases hr : res = .ok <;>
    by_cases ha : s.eng.answerSent = false <;> by_cases hn : s.eng.noAnswer = false <;>
    simp_all [setWarn, addNoAnswer, mapStat, oqPop, warnHandlerErr, warnNoAnswer]

end Sys2Proof.Machine
end

