-- ==== Sys2Proof/Laws/Scanner.lean ====
section
/-! SUPPORT. What the codec's transmission and the scanner's operations do, each as one record update, and the frame of
the whole scan: which elements it may change. -/

namespace Sys2Proof.Machine

/-! ### Transmission -/

theorem physical_length (l : List Byte) (h : 2 ≤ l.length) :
    (physical l).length = l.length + (l.drop 2).count sep := by
  have key : ∀ m : List Byte, (m.flatMap stuff).length = m.length + m.count sep := by
    intro m
    induction m with
    | nil => rfl
    | cons b m ih =>
      by_cases hb : b = sep
      · subst hb; simp [stuff, ih]; omega
      · simp [stuff, ih, hb]; omega
  simp [physical, key]; omega

theorem logicalFrame_length (ft : Byte) (d : List Byte) (c : Bool) :
    (logicalFrame ft d c).length = 10 + d.length + trailerLen c := by
  cases c <;> simp [logicalFrame, headerBytes, frameCrcBytes, trailerLen] <;> omega

theorem bufferSize_eq (ft : Byte) (d : List Byte) (c : Bool) :
    bufferSize ft d c = (physical (logicalFrame ft d c)).length := by
  rw [physical_length _ (by rw [logicalFrame_length]; omega)]; rfl

theorem sendData_oversize {ft : Byte} {d : List Byte} {c : Bool} {s : State} (h : maxDataSize s.params < d.length) :
    sendData ft d c s = (0, s) := by
  simp [sendData, h]

theorem sendData_fits {ft : Byte} {d : List Byte} {c : Bool} {s : State} (h : d.length ≤ maxDataSize s.params) :
    sendData ft d c s = (bufferSize ft d c, { s with
      txLine := s.txLine ++ physical (logicalFrame ft d c)
      stat := { s.stat with txFrames := s.stat.txFrames + 1 } }) := by
  simp [sendData, Nat.not_lt.mpr h, fillBuffer, bufferSize_eq, addTxFrame, mapStat, txWrite]

/-! ### Operations of the scanner -/

theorem readData_eq (s : State) :
    readData s = { s with rb := s.rb ++ s.rxLine.take (rbFree s), rxLine := s.rxLine.drop (rbFree s) } := by
  have h : s.rxLine.drop (min s.rxLine.length (rbFree s)) = s.rxLine.drop (rbFree s) := by
    rcases Nat.le_total s.rxLine.length (rbFree s) with h | h
    · rw [Nat.min_eq_left h, List.drop_eq_nil_of_le (Nat.le_refl _), List.drop_eq_nil_of_le h]
    · rw [Nat.min_eq_right h]
  have h' : (s.rxLine.take (min s.rxLine.length (rbFree s))).take (rbFree s) = s.rxLine.take (rbFree s) := by
    rw [List.take_take]
    rcases Nat.le_total s.rxLine.length (rbFree s) with h | h
    · rw [Nat.min_eq_left h, Nat.min_eq_right h, List.take_of_length_le (Nat.le_refl _), List.take_of_length_le h]
    · rw [Nat.min_eq_right h, Nat.min_self]
  simp only [readData, rbReserve, rbPushSlice_eq]
  rw [h, h']

theorem abort_eq (e : FrameError) (s : State) :
    abort e s = { s with
      rb := s.rb.drop s.scn.consumed
      frameErr := e
      stat := { s.stat with frameErrors := s.stat.frameErrors + 1 }
      warn := s.warn ||| warnFrameErr
      scn := Scanner.idle } := by
  simp [abort, rbDrop_eq, resetSync, setWarn, addFrameError, mapStat]

theorem dropGarbage_eq (k : Nat) (s : State) (h : 0 < k) :
    dropGarbage k s = { s with
      rb := s.rb.drop k
      stat := { s.stat with garbage := s.stat.garbage + BitVec.ofNat 32 k }
      warn := s.warn ||| warnGarbage } := by
  simp [dropGarbage, h, rbDrop_eq, setWarn, addGarbage, mapStat]

theorem dropGarbage_zero (s : State) : dropGarbage 0 s = s := by simp [dropGarbage]

/-- The next logical byte is found without a peek outside RB. -/
theorem nextLogical_total (s : State) : ∃ r, nextLogical s = .ok r := by
  unfold nextLogical rbSize
  by_cases h : s.rb.length ≤ s.scn.consumed
  · exact ⟨_, by simp [h]; rfl⟩
  · by_cases h1 : s.rb.length ≤ s.scn.consumed + 1
    · simp only [h, if_false, rbPeek_of_lt (Nat.lt_of_not_le h), h1, if_true]
      split <;> exact ⟨_, rfl⟩
    · simp only [h, if_false, rbPeek_of_lt (Nat.lt_of_not_le h), h1, rbPeek_of_lt (Nat.lt_of_not_le h1)]
      split
      · exact ⟨_, rfl⟩
      · split <;> exact ⟨_, rfl⟩

/-! ### The frame of the scan -/

/-- What a part of the scan may change, and that it clears no WARN bit and leaves WARN[6:4] alone. -/
structure ScanFrame (s s' : State) : Prop where
  same : s' = { s with rb := s'.rb, scn := s'.scn, fifo := s'.fifo, warn := s'.warn, frameErr := s'.frameErr,
                       stat := { s'.stat with shed := s.stat.shed, txFrames := s.stat.txFrames,
                                              timeouts := s.stat.timeouts, noAnswer := s.stat.noAnswer } }
  warnKept : s.warn &&& s'.warn = s.warn
  warnHigh : s'.warn.extractLsb' 4 3 = s.warn.extractLsb' 4 3

/-- WARN[6] is one of the bits the scan leaves alone. -/
theorem ScanFrame.warnCmd {s s' : State} (h : ScanFrame s s') : s'.warn.getLsbD 6 = s.warn.getLsbD 6 := by
  have := congrArg (·.getLsbD 2) h.warnHigh
  simpa using this

theorem ScanFrame.refl (s : State) : ScanFrame s s := ⟨rfl, by simp, rfl⟩

theorem ScanFrame.trans {s t u : State} (h : ScanFrame s t) (k : ScanFrame t u) : ScanFrame s u := by
  obtain ⟨h1, h2, h3⟩ := h
  obtain ⟨k1, k2, k3⟩ := k
  refine ⟨?_, ?_, by rw [k3, h3]⟩
  · rw [k1, h1]
  · rw [← h2, BitVec.and_assoc, k2]

theorem warn_or_kept (a m : BitVec 7) : a &&& (a ||| m) = a := by
  ext k; simp; intro h; simp [h]

theorem ScanFrame.of_eq {s : State} (rb : List Byte) (scn : Scanner) (fifo : List RxFrame) (m : BitVec 7)
    (fe : FrameError) (g fr rx fd : Word) (hm : m.extractLsb' 4 3 = 0) :
    ScanFrame s { s with rb := rb, scn := scn, fifo := fifo, warn := s.warn ||| m, frameErr := fe,
                         stat := { s.stat with garbage := g, frameErrors := fr, rxFrames := rx, fifoDrops := fd } } :=
  ⟨rfl, by simp [warn_or_kept], by simp [BitVec.extractLsb'_or, hm]⟩

theorem abort_frame (e : FrameError) (s : State) : ScanFrame s (abort e s) := by
  rw [abort_eq]
  exact ScanFrame.of_eq _ _ _ warnFrameErr _ _ _ _ _ (by decide)

theorem dropGarbage_frame (k : Nat) (s : State) : ScanFrame s (dropGarbage k s) := by
  rcases Nat.eq_zero_or_pos k with h | h
  · subst h; rw [dropGarbage_zero]; exact ScanFrame.refl s
  · rw [dropGarbage_eq k s h]; exact ScanFrame.of_eq _ _ _ warnGarbage _ _ _ _ _ (by decide)

theorem lock_frame (now : Word) (s : State) : ScanFrame s (lock now s) := ⟨rfl, by simp, by simp⟩

theorem fifoPush_frame (f : RxFrame) (s : State) : ScanFrame s (fifoPush f s) := by
  by_cases h : s.fifo.length = s.params.fifoCap
  · rw [fifoPush_full h]; exact ScanFrame.of_eq _ _ _ warnFifoOverflow _ _ _ _ _ (by decide)
  · rw [fifoPush_room h]; exact ⟨rfl, by simp, by simp⟩

theorem headerDone_frame (s : State) : ScanFrame s (headerDone s) := by
  unfold headerDone
  split
  · exact abort_frame _ s
  · exact ⟨rfl, by simp, by simp⟩

theorem bodyDone_frame (now : Word) (s : State) : ScanFrame s (bodyDone now s) := by
  unfold bodyDone
  split
  · exact abort_frame _ s
  · rw [rbDrop_eq]
    refine ScanFrame.trans (t := { s with rb := s.rb.drop s.scn.consumed }) ⟨rfl, by simp, by simp⟩ ?_
    exact ScanFrame.trans (fifoPush_frame _ _) ⟨rfl, by simp [addRxFrame], by simp [addRxFrame]⟩

theorem accept_frame (now : Word) (b : Byte) (e : Bool) (s : State) : ScanFrame s (accept now b e s) := by
  refine ScanFrame.trans (t := { s with scn := acceptByte b e s.scn }) ⟨rfl, by simp, by simp⟩ ?_
  unfold accept finishPart
  split
  · exact headerDone_frame _
  · split
    · exact bodyDone_frame now _
    · exact ScanFrame.refl _

theorem staleCheck_frame (now : Word) (s : State) : ScanFrame s (staleCheck now s) := by
  unfold staleCheck
  split
  · exact abort_frame _ s
  · exact ScanFrame.refl s

/-- One pass never faults; whether it returns or goes on, it keeps the frame. -/
theorem scanPass_frame (now : Word) (s : State) :
    ∃ t, (scanPass now s = .ok (.done t) ∨ scanPass now s = .ok (.again t)) ∧ ScanFrame s t := by
  have attempt : ∃ t, ((match nextLogical s with
      | .error f => Except.error f
      | .ok .needMore => .ok (Pass.done s)
      | .ok .violation => .ok (.again (abort .wrongPostByte s))
      | .ok (.byte b e) => .ok (.again (accept now b e s))) = .ok (.done t) ∨
      (match nextLogical s with
      | .error f => Except.error f
      | .ok .needMore => .ok (Pass.done s)
      | .ok .violation => .ok (.again (abort .wrongPostByte s))
      | .ok (.byte b e) => .ok (.again (accept now b e s))) = .ok (.again t)) ∧ ScanFrame s t := by
    obtain ⟨r, hr⟩ := nextLogical_total s
    rw [hr]
    cases r with
    | needMore => exact ⟨s, .inl rfl, ScanFrame.refl s⟩
    | violation => exact ⟨_, .inr rfl, abort_frame _ s⟩
    | byte b e => exact ⟨_, .inr rfl, accept_frame now b e s⟩
  unfold scanPass
  rcases hp : s.scn.phase with _ | _ | _
  · simp only []
    by_cases hl : (syncSearch s.rb).2 = true
    · exact ⟨_, .inr (by rw [if_pos hl]), ScanFrame.trans (dropGarbage_frame _ s) (lock_frame now _)⟩
    · exact ⟨_, .inl (by rw [if_neg hl]), dropGarbage_frame _ s⟩
  · exact attempt
  · exact attempt

/-- The scan answers a state for every fuel, and keeps the frame. -/
theorem scanLoop_frame (now : Word) (fuel : Nat) (s : State) :
    ∃ t, scanLoop now fuel s = .ok t ∧ ScanFrame s t := by
  induction fuel generalizing s with
  | zero => exact ⟨s, rfl, ScanFrame.refl s⟩
  | succ n ih =>
    obtain ⟨t, h | h, hf⟩ := scanPass_frame now s
    · exact ⟨t, by simp [scanLoop, h], hf⟩
    · obtain ⟨u, hu, hfu⟩ := ih t
      exact ⟨u, by simp [scanLoop, h, hu], ScanFrame.trans hf hfu⟩

/-- `process_data` answers a state, and changes only what the scan may change. -/
theorem processData_frame (now : Word) (s : State) : ∃ t, processData now s = .ok t ∧ ScanFrame s t := by
  obtain ⟨t, h, hf⟩ := scanLoop_frame now (scanFuel (staleCheck now s)) (staleCheck now s)
  exact ⟨t, h, ScanFrame.trans (staleCheck_frame now s) hf⟩

end Sys2Proof.Machine
end

