-- ==== Sys2Proof/Laws/Attempt.lean ====
section
/-! SUPPORT. What the scanner's parts do to an open attempt: where the search locks, which logical byte comes next, and
how accepting it keeps the attempt the unstuffed front of RB; and the measure that each continuing pass lowers. -/

namespace Sys2Proof.Machine

/-- A start that the search locks has its three bytes in RB. -/
theorem syncSearch_locked (rb : List Byte) : (syncSearch rb).2 = true → (syncSearch rb).1 + 3 ≤ rb.length := by
  induction rb with
  | nil => simp [syncSearch]
  | cons b rest ih =>
    simp only [syncSearch]
    split
    · split
      · simp; omega
      · intro h; simp at h ⊢; have := ih h; omega
    · split
      · simp
      · intro h; simp at h ⊢; have := ih h; omega

/-- Where the search locks stand two separators and a byte that is none. -/
theorem syncSearch_start (rb : List Byte) : (syncSearch rb).2 = true →
    byteAt (rb.drop (syncSearch rb).1) 0 = sep ∧ byteAt (rb.drop (syncSearch rb).1) 1 = sep ∧
      byteAt (rb.drop (syncSearch rb).1) 2 ≠ sep := by
  induction rb with
  | nil => simp [syncSearch]
  | cons b rest ih =>
    simp only [syncSearch]
    split
    · split
      · rename_i h; simp; simpa [byteAt] using h
      · intro h; simp at h ⊢; exact ih h
    · split
      · simp
      · intro h; simp at h ⊢; exact ih h

/-- A search that does not lock keeps at most two bytes. -/
theorem syncSearch_tail (rb : List Byte) : (syncSearch rb).2 = false →
    (syncSearch rb).1 ≤ rb.length ∧ rb.length ≤ (syncSearch rb).1 + 2 := by
  induction rb with
  | nil => simp [syncSearch]
  | cons b rest ih =>
    simp only [syncSearch]
    split
    · split
      · simp
      · intro h; simp at h ⊢; have := ih h; omega
    · split
      · simp; omega
      · intro h; simp at h ⊢; have := ih h; omega

/-- One more logical byte, stuffed, at the end of the physical form. -/
theorem physical_append (a : List Byte) (b : Byte) (h : 2 ≤ a.length) :
    physical (a ++ [b]) = physical a ++ stuff b := by
  simp [physical, List.drop_append_of_le_length h]

/-- The next logical byte is missing, is a violation, or stands stuffed at the front of the unconsumed bytes. -/
theorem nextLogical_cases (s : State) :
    (nextLogical s = .ok .needMore ∧ s.rb.length ≤ s.scn.consumed + 1) ∨
    (nextLogical s = .ok .violation) ∨
    (∃ b rest, nextLogical s = .ok (.byte b (b == sep)) ∧ s.rb.drop s.scn.consumed = stuff b ++ rest ∧
      s.scn.consumed < s.rb.length) := by
  unfold nextLogical rbSize
  by_cases h : s.rb.length ≤ s.scn.consumed
  · left; simp [h]; omega
  · have hl := Nat.lt_of_not_le h
    simp only [h, if_false, rbPeek_of_lt hl]
    by_cases hx : s.rb[s.scn.consumed] = sep
    · simp only [hx, ne_eq, not_true, if_false]
      by_cases h1 : s.rb.length ≤ s.scn.consumed + 1
      · left; simp [h1]
      · have hl1 := Nat.lt_of_not_le h1
        simp only [h1, if_false, rbPeek_of_lt hl1]
        by_cases hy : s.rb[s.scn.consumed+1] = post
        · right; right
          refine ⟨sep, s.rb.drop (s.scn.consumed+2), by simp [hy], ?_, hl⟩
          rw [List.drop_eq_getElem_cons hl, List.drop_eq_getElem_cons hl1, hx, hy]; simp [stuff]
        · right; left; simp [hy]
    · right; right
      refine ⟨s.rb[s.scn.consumed], s.rb.drop (s.scn.consumed+1), by simp [hx], ?_, hl⟩
      rw [List.drop_eq_getElem_cons hl]; simp [stuff, hx]

theorem stuff_len (b : Byte) : (stuff b).length = if (b == sep) = true then 2 else 1 := by
  by_cases h : b = sep <;> simp [stuff, h]

theorem attempt_asm_length {rb c} (ha : Attempt rb c) : 2 ≤ c.asm.length := by
  have := congrArg List.length ha.separators; simp at this; omega

theorem coveredOf_append (a : List Byte) (b : Byte) (n : Nat) (h : 2 ≤ a.length) :
   coveredOf (a ++ [b]) n = coveredOf a n ++ (if a.length < 10 + n then [b] else []) := by
  unfold coveredOf
  split
  · rw [List.take_of_length_le (by simp; omega), List.take_of_length_le (by omega), List.drop_append_of_le_length h]
  · rw [List.take_append_of_le_length (by omega)]; simp

/-- Accepting the next logical byte keeps the attempt. -/
theorem attempt_accept {rb : List Byte} {c : Scanner} {b : Byte} {rest} (ha : Attempt rb c)
    (hd : rb.drop c.consumed = stuff b ++ rest)
    (hp : (c.phase = .header ∧ c.dataLen = 0 ∧ c.asm.length < 10) ∨ c.phase = .body) :
    Attempt rb (acceptByte b (b == sep) c) := by
  have h2 := attempt_asm_length ha
  have hlen : c.consumed + (stuff b).length ≤ rb.length := by
    have := congrArg List.length hd; simp at this
    have := ha.within; omega
  have hc : (acceptByte b (b == sep) c).consumed = c.consumed + (stuff b).length := by simp [acceptByte, stuff_len]
  refine ⟨?_, ha.third, ?_, ?_, ?_⟩
  · show (c.asm ++ [b]).take 2 = _
    rw [List.take_append_of_le_length h2, ha.separators]
  · rw [hc]; exact hlen
  · rw [hc]; show _ = physical (c.asm ++ [b])
    rw [physical_append _ _ h2, ← ha.unstuffed, List.take_add, hd]; simp
  · show (if (b == sep) = true ∧ 2 ≤ c.asm.length ∧ (c.phase = .header ∨ c.asm.length < 10 + c.dataLen.toNat)
        then c.esc + 1 else c.esc) = BitVec.ofNat 8 ((coveredOf (c.asm ++ [b]) c.dataLen.toNat).count sep)
    rw [coveredOf_append _ _ _ h2, ha.escapes]
    have : (c.phase = .header ∨ c.asm.length < 10 + c.dataLen.toNat) ↔ c.asm.length < 10 + c.dataLen.toNat := by
      rcases hp with ⟨h1, h3, h4⟩ | h1 <;> simp [*]
    simp only [this]
    by_cases hb : b = sep <;> by_cases hl : c.asm.length < 10 + c.dataLen.toNat <;>
      simp [hb, hl, h2, BitVec.ofNat_add]

/-- A finished body leaves the scanner in SYNC and RB without the attempt. -/
theorem bodyDone_ok (now) (s : State) :
    (bodyDone now s).scn = Scanner.idle ∧ (bodyDone now s).rb = s.rb.drop s.scn.consumed := by
  unfold bodyDone; split
  · rw [abort_eq]; simp
  · rw [rbDrop_eq]; simp only [resetSync_scn, resetSync_rb, addRxFrame, mapStat_rb]
    refine ⟨trivial, ?_⟩
    generalize hs : ({ s with rb := s.rb.drop s.scn.consumed } : State) = u
    have hu : u.rb = s.rb.drop s.scn.consumed := by rw [← hs]
    rw [← hu]
    unfold fifoPush; split <;> simp [addFifoDrop]

/-- What a parsed header says of the data length: the size byte less 8, within the limit. -/
theorem parseHeader_len {p a hd} (h : parseHeader p a .empty = .ok hd) :
    hd.dataLen.toNat + 8 = (byteAt a 2).toNat ∧ hd.dataLen.toNat + 8 ≤ p.maxFrameSize := by
  unfold parseHeader at h
  simp only [ne_eq, not_true, if_false] at h
  split at h; · cases h
  split at h; · cases h
  split at h; · cases h
  split at h; · cases h
  rename_i h1 h2
  cases h
  have hx : (byteAt a 2 - 8#8).toNat + 8 = (byteAt a 2).toNat := by
    have := (byteAt a 2).isLt
    rw [BitVec.toNat_sub]; simp; omega
  refine ⟨hx, ?_⟩
  show (byteAt a 2 - 8#8).toNat + 8 ≤ _
  omega

/-- Twice the bytes not yet accepted, and one more outside SYNC. -/
def scanMeasure (s : State) : Nat :=
  if s.scn.phase = .sync then 2 * s.rb.length + 1 else 2 * (s.rb.length - s.scn.consumed) + 2

theorem scanMeasure_abort (e) (s : State) : scanMeasure (abort e s) = 2 * (s.rb.length - s.scn.consumed) + 1 := by
  rw [abort_eq]; simp [scanMeasure, Scanner.idle]

theorem scanMeasure_headerDone (s : State) :
    scanMeasure (headerDone s) ≤ 2 * (s.rb.length - s.scn.consumed) + 2 := by
  unfold headerDone; split
  · rw [scanMeasure_abort]; omega
  · simp [scanMeasure]

theorem scanMeasure_accept (now b e) (s : State) (hp : s.scn.phase ≠ .sync) (hj : s.scn.consumed < s.rb.length) :
   scanMeasure (accept now b e s) < scanMeasure s := by
  have h1 : scanMeasure s = 2 * (s.rb.length - s.scn.consumed) + 2 := by simp [scanMeasure, hp]
  rw [h1]
  unfold accept finishPart
  have hc : s.scn.consumed + 1 ≤ (acceptByte b e s.scn).consumed := by simp [acceptByte]; split <;> omega
  split
  · refine Nat.lt_of_le_of_lt (scanMeasure_headerDone _) ?_
    simp; omega
  · split
    · have := bodyDone_ok now { s with scn := acceptByte b e s.scn }
      unfold scanMeasure; rw [this.1, this.2]; simp [Scanner.idle]; omega
    · have : (acceptByte b e s.scn).phase = s.scn.phase := rfl
      simp [scanMeasure, this, hp]; omega

/-- Each pass that goes on lowers the measure. -/
theorem scanPass_measure (now s t) (h : scanPass now s = .ok (.again t)) : scanMeasure t < scanMeasure s := by
  unfold scanPass at h
  have att : ∀ (_ : s.scn.phase ≠ .sync) (_ : (match nextLogical s with
      | .error f => Except.error f
      | .ok .needMore => .ok (Pass.done s)
      | .ok .violation => .ok (.again (abort .wrongPostByte s))
      | .ok (.byte b e) => .ok (.again (accept now b e s))) = .ok (.again t)), scanMeasure t < scanMeasure s := by
    intro hp h
    have h1 : scanMeasure s = 2 * (s.rb.length - s.scn.consumed) + 2 := by simp [scanMeasure, hp]
    split at h
    · cases h
    · cases h
    · cases h; rw [scanMeasure_abort, h1]; omega
    · rename_i b e hn
      cases h
      apply scanMeasure_accept _ _ _ _ hp
      unfold nextLogical rbSize at hn
      by_contra hc
      simp [Nat.not_lt.mp hc] at hn
  rcases hp : s.scn.phase with _ | _ | _ <;> rw [hp] at h
  · simp only at h
    split at h
    · rename_i hl
      cases h
      have := syncSearch_locked _ hl
      have h2 : scanMeasure s = 2 * s.rb.length + 1 := by simp [scanMeasure, hp]
      rw [h2]
      unfold scanMeasure
      by_cases h0 : 0 < (syncSearch s.rb).1
      · simp [dropGarbage_eq _ _ h0]; omega
      · have : (syncSearch s.rb).1 = 0 := by omega
        simp [this, dropGarbage_zero]; omega
    · cases h
  · exact att (by simp [hp]) h
  · exact att (by simp [hp]) h

end Sys2Proof.Machine
end

