-- ==== Sys2Proof/Laws/Encoding.lean ====
section
/-! SUPPORT. The fields of an assembled command word: its opcode, its operand bits, and the mask of an operand. -/

namespace Sys2Proof

theorem opcode_encode (i : Instr) : opcode (encode i) = i.opcode := by
  unfold opcode encode
  ext k h
  simp [show 24 + k < 32 by omega, ← BitVec.getLsbD_eq_getElem, h, show k < 32 by omega]

theorem encode_bit (i : Instr) {k : Nat} (h : k < 24) : (encode i).getLsbD k = i.operandBits.getLsbD k := by
  simp [encode, h, show k < 32 by omega]

theorem encode_field (i : Instr) {lo n : Nat} (h : lo + n ≤ 24) :
    (encode i).extractLsb' lo n = i.operandBits.extractLsb' lo n := by
  ext k hk
  simp [encode_bit i (show lo + k < 24 by omega)]

/-- Bit `k` of an operand at its place. -/
theorem operandAt_bit {n lo k : Nat} (v : BitVec n) (h : k < 24) :
    (operandAt lo v).getLsbD k = (!decide (k < lo) && v.getLsbD (k - lo)) := by
  simp [operandAt, h]

/-- An operand at its place has no bit outside its field. -/
theorem operandAt_masked {n : Nat} (lo : Nat) (v : BitVec n) :
    operandAt lo v &&& operandAt lo (BitVec.allOnes n) = operandAt lo v := by
  ext k hk
  simp only [← BitVec.getLsbD_eq_getElem, BitVec.getLsbD_and, operandAt_bit _ hk, BitVec.getLsbD_allOnes]
  by_cases h : k - lo < n
  · cases decide (k < lo) <;> simp [h]
  · simp [BitVec.getLsbD_of_ge _ _ (Nat.not_lt.mp h)]

/-- Two fields side by side stay inside the union of their masks. -/
theorem masked_or {a b m n : BitVec 24} (ha : a &&& m = a) (hb : b &&& n = b) : (a ||| b) &&& (m ||| n) = a ||| b := by
  rw [← ha, ← hb]
  ext k hk
  simp only [BitVec.getElem_and, BitVec.getElem_or]
  cases a[k] <;> cases b[k] <;> cases m[k] <;> cases n[k] <;> rfl

/-- A word whose operand bits stay inside `m` stays inside the mask of the opcode and `m`. -/
theorem encode_masked {i : Instr} {m : BitVec 24} (h : i.operandBits &&& m = i.operandBits) :
    encode i &&& (0xFF000000 ||| m.setWidth 32) = encode i := by
  unfold encode
  rw [← h]
  ext k hk
  have ff : ((0xFF000000 : Word))[k] = decide (24 ≤ k) := by
    revert k; decide
  simp only [BitVec.getElem_and, BitVec.getElem_or, ff, BitVec.getElem_shiftLeft, BitVec.getElem_setWidth,
    BitVec.getLsbD_and]
  by_cases h24 : k < 24
  · simp [h24, show ¬ 24 ≤ k by omega]
  · simp [h24, show 24 ≤ k by omega]

end Sys2Proof
end

