-- ==== Sys2Proof/Laws/PerInstr.lean ====
section
/-! SUPPORT. One family of lemmas over the commands: the assembled word of a command carries the command's opcode and
has no bit outside the bits that its format uses (30_encoding.md R59, R74). -/

namespace Sys2Proof.Laws.WordInFormat

/-- The word has the command's opcode and keeps to the bits its format uses. -/
def Statement (i : Instr) : Prop := opcode (encode i) = i.opcode ∧ encode i &&& usedBits i.opcode = encode i

/-- The operand bits inside a mask `m`, and `m` with the opcode the bits used, give the statement. -/
theorem of_mask {i : Instr} (m : BitVec 24) (h : i.operandBits &&& m = i.operandBits)
    (hu : usedBits i.opcode = 0xFF000000 ||| m.setWidth 32) : Statement i :=
  ⟨opcode_encode i, by rw [hu]; exact encode_masked h⟩

theorem nop : Statement .nop := of_mask 0 rfl rfl
theorem reset : Statement .reset := of_mask 0 rfl rfl
theorem loop : Statement .loop := of_mask 0 rfl rfl
theorem crcInit (h : Half) : Statement (.crcInit h) := of_mask _ (operandAt_masked 0 h) rfl
theorem crcFeed (b : Byte) : Statement (.crcFeed b) := of_mask _ (operandAt_masked 0 b) rfl
theorem chkInit (b : Byte) : Statement (.chkInit b) := of_mask _ (operandAt_masked 0 b) rfl
theorem chkFeed (b : Byte) : Statement (.chkFeed b) := of_mask _ (operandAt_masked 0 b) rfl
theorem stageClear : Statement .stageClear := of_mask 0 rfl rfl
theorem stagePush (b : Byte) : Statement (.stagePush b) := of_mask _ (operandAt_masked 0 b) rfl
theorem stageSubcmd (h : Half) : Statement (.stageSubcmd h) := of_mask _ (operandAt_masked 0 h) rfl
theorem stageRetry (t : U24) : Statement (.stageRetry t) := of_mask _ (operandAt_masked 0 t) rfl
theorem sendMessage (ft : Byte) (c : Bool) (r : Byte) : Statement (.sendMessage ft c r) :=
  of_mask _ (masked_or (masked_or (operandAt_masked 16 r) (operandAt_masked 8 (BitVec.ofBool c)))
    (operandAt_masked 0 ft)) rfl
theorem sendMessageNa (ft : Byte) (c : Bool) : Statement (.sendMessageNa ft c) :=
  of_mask _ (masked_or (operandAt_masked 8 (BitVec.ofBool c)) (operandAt_masked 0 ft)) rfl
theorem sendAnswer (ft : Byte) (m : CrcMode) : Statement (.sendAnswer ft m) :=
  of_mask _ (masked_or (operandAt_masked 8 m.code) (operandAt_masked 0 ft)) rfl
theorem noAnswer : Statement .noAnswer := of_mask 0 rfl rfl
theorem handlerReturn (res : HandlerResult) : Statement (.handlerReturn res) :=
  of_mask _ (operandAt_masked 0 res.code) rfl

end Sys2Proof.Laws.WordInFormat
end

