-- ==== Sys2Proof/Laws/Sequencer.lean ====
section
/-! SUPPORT. What the parts of LOOP's state step do, and which elements the whole of it may change. -/

namespace Sys2Proof.Machine

/-- With at most one frame queued nothing is shed. -/
theorem shed_few {s : State} (h : s.fifo.length ≤ 1) : shed s = s := by
  simp [shed, fifoAvailable, show ¬ 2 ≤ s.fifo.length by omega]

/-- With `k + 2` frames queued the newest stays and `k + 1` are shed. -/
theorem shed_many {s : State} {k : Nat} (h : s.fifo.length = k + 2) :
    shed s = { s with
      fifo := s.fifo.drop (k + 1)
      stat := { s.stat with shed := s.stat.shed + BitVec.ofNat 32 (k + 1) }
      warn := s.warn ||| warnShed } := by
  simp [shed, fifoAvailable, h, fifoDrop_eq, addShed, mapStat, setWarn]

/-- What shedding may change. -/
theorem shed_frame (s : State) :
    shed s = { s with fifo := (shed s).fifo, warn := (shed s).warn, stat := (shed s).stat } := by
  unfold shed
  simp only []
  split
  · rw [fifoDrop_eq]; rfl
  · rfl

/-- What LOOP's state step may change. -/
def EngineFrame (s t : State) : Prop :=
  t = { s with fifo := t.fifo, oq := t.oq, eng := t.eng, evt := t.evt, warn := t.warn, stat := t.stat,
               txLine := t.txLine }

theorem idleStep_frame (now : Word) (s : State) : EngineFrame s (idleStep now s) := by
  have hs := shed_frame s
  unfold EngineFrame idleStep
  generalize shed s = v at *
  rcases hf : v.fifo with _ | ⟨f, r⟩
  · rw [fifoPop_nil hf]
    simp only
    split
    · rw [hs]
    · split
      · unfold sendHead sendData oqDecHead
        simp only []
        split <;> split <;> (try split) <;> rw [hs] <;> rfl
      · rw [hs]
  · rw [fifoPop_cons hf, hs]
    rfl

/-- The waiting step goes on whenever OQ holds an item. -/
theorem waitingStep_frame (now : Word) {s : State} (h : s.oq ≠ []) :
    ∃ t, waitingStep now s = .ok t ∧ EngineFrame s t := by
  unfold waitingStep EngineFrame
  rcases hq : s.oq with _ | ⟨i, rest⟩
  · exact absurd hq h
  simp only
  split
  · split
    · exact ⟨_, rfl, rfl⟩
    · exact ⟨_, rfl, rfl⟩
  · rcases hf : s.fifo with _ | ⟨f, r⟩
    · rw [fifoPop_nil hf]; exact ⟨_, rfl, rfl⟩
    · rw [fifoPop_cons hf]; exact ⟨_, rfl, rfl⟩

theorem engineStep_frame (now : Word) {s : State} (h : s.eng.state = .waiting → s.oq ≠ []) :
    ∃ t, engineStep now s = .ok t ∧ EngineFrame s t := by
  unfold engineStep
  rcases hs : s.eng.state with _ | _
  · exact ⟨_, rfl, idleStep_frame now s⟩
  · exact waitingStep_frame now (h hs)

end Sys2Proof.Machine
end

