-- ==== Sys2Proof/Tests/Slice0.lean ====
section
/-! SUPPORT. Tests of the model. The expected values are the spec's own: words written out from the encoding tables of
30_encoding.md, the examples of the rules, and the vectors of 95_test_vectors.md (ids such as SYS-5). After them, for
every obligation with hypotheses, a theorem that meets them on concrete data. -/

namespace Sys2Proof.Tests

open Sys2Proof.Machine

/-! ### Helpers -/

/-- The parameters of the vectors (00_scope.md R8), at a window base that is not 0. -/
def vecParams : Params where
  maxFrameSize := 241
  rbCap := 512
  fifoCap := 8
  oqCap := 8
  frameTimeoutMs := 300
  answerTimeoutMs := 200
  cooldownMs := 100
  maxRetries := 5
  windowBase := 0x40000000

/-- Power-on with the parameters of the vectors. -/
def s0 : State := State.powerOn vecParams

/-- A field of the next state, if there is one. -/
def after {α : Type} (o : Host.Outcome State Fault Refusal) (f : State → α) : Option α :=
  match o with
  | .next t => some (f t)
  | .fault _ => none
  | .refused _ => none

/-- The host writes the word `w` to CMD. -/
def write (w : Word) (s : State) : Host.Outcome State Fault Refusal := perform (.hostWrite 0x40000004 w) s

/-- What `decode` reads, if it is a command. -/
def reads (w : Word) : Option Instr :=
  match decode w with
  | .ok i => some i
  | .error _ => none

/-- The frame F1 of 30_encoding.md R73. -/
def f1 : List Byte := [0xFF, 0xFF, 0x0A, 0x40, 0x00, 0x00, 0x00, 0x00, 0x00, 0x01, 0x4D, 0x01, 0x99, 0xB3, 0xB4]

/-- A received frame, a request and a notification. -/
def frame1 : RxFrame := { ftype := 0x01, useCrc := true, data := [0x4D, 0x01], arrival := 0 }
def request1 : OutItem :=
  { ftype := 0x01, data := [0x4D, 0x01], useCrc := true, expectsAnswer := true, retries := 3, retryInterval := 0 }
def notice1 : OutItem :=
  { ftype := 0x61, data := [], useCrc := false, expectsAnswer := false, retries := 1, retryInterval := 0 }

/-- A MESSAGE callout held, of a message with CRC. -/
def inMessage : State :=
  { s0 with eng := { s0.eng with callout := .message, processing := true, inUseCrc := true } }

/-- A request outstanding since TIME 0. -/
def inWait : State :=
  { s0 with oq := [{ request1 with retries := 2 }], eng := { s0.eng with state := .waiting } }

/-- 233 staged bytes, and a subcommand: 235 bytes serialised. -/
def bigStage : Staging := { data := List.replicate 233 0x11, subcmd := 0x0102, retry := 0 }

/-! ### Well-formedness: the one ill-formed operand is refused -/

theorem test_wf_reserved_mode_refused : Instr.wellFormed (.sendAnswer 0x02 .reserved) = false := by decide
theorem test_wf_defined_modes :
    Instr.wellFormed (.sendAnswer 0x02 .inherit) = true ∧ Instr.wellFormed (.sendAnswer 0x02 .off) = true ∧
    Instr.wellFormed (.sendAnswer 0x02 .on) = true := by decide

/-! ### Decoding: words written out from R59 and R61, ignored bits set in some -/

theorem test_decode_nop : reads 0x00FFFFFF = some .nop := by decide
theorem test_decode_reset : reads 0x01000000 = some .reset := by decide
theorem test_decode_loop : reads 0x02FFFFFF = some .loop := by decide
theorem test_decode_crcInit : reads 0x10AB1234 = some (.crcInit 0x1234) := by decide
theorem test_decode_crcFeed : reads 0x11ABCD31 = some (.crcFeed 0x31) := by decide
theorem test_decode_chkInit : reads 0x120000F0 = some (.chkInit 0xF0) := by decide
theorem test_decode_chkFeed : reads 0x1300000A = some (.chkFeed 0x0A) := by decide
theorem test_decode_stageClear : reads 0x20000000 = some .stageClear := by decide
theorem test_decode_stagePush : reads 0x210000FF = some (.stagePush 0xFF) := by decide
theorem test_decode_stageSubcmd : reads 0x22FF4D01 = some (.stageSubcmd 0x4D01) := by decide
theorem test_decode_stageRetry : reads 0x23FEDCBA = some (.stageRetry 0xFEDCBA) := by decide
theorem test_decode_sendMessage : reads 0x3002FF01 = some (.sendMessage 0x01 true 0x02) := by decide
theorem test_decode_sendMessageNa : reads 0x31FFFE7C = some (.sendMessageNa 0x7C false) := by decide
theorem test_decode_sendAnswer : reads 0x32FFFE02 = some (.sendAnswer 0x02 .on) ∧
    reads 0x32000102 = some (.sendAnswer 0x02 .off) ∧ reads 0x32000302 = some (.sendAnswer 0x02 .reserved) := by decide
theorem test_decode_noAnswer : reads 0x33000000 = some .noAnswer := by decide
theorem test_decode_handlerReturn : reads 0x34FFFFF8 = some (.handlerReturn .ok) ∧
    reads 0x34000003 = some (.handlerReturn .unsupportedSubcommand) := by decide
theorem test_decode_illegal : reads 0x03000000 = none ∧ reads 0x14000000 = none ∧ reads 0x35000000 = none ∧
    reads 0x7F000000 = none := by decide

theorem test_encode_examples :
    encode (.sendMessage 0x01 true 2) = 0x30020101 ∧ encode (.sendAnswer 0x02 .on) = 0x32000202 ∧
    encode (.stageRetry 500) = 0x230001F4 ∧ encode (.crcInit 0x1234) = 0x10001234 := by decide

/-- The table's word runs as the first step after reset, whatever the OPEN parameters. -/
theorem test_first_step_runs :
    after (step (State.reset.withFetchWord 32 0x10001234)) (fun t => (t.crcAcc, t.pending)) = some (0x1234, []) := by
  decide

/-! ### Pure functions: R73, R93 to R98, R104 to R112, R117 -/

theorem test_crc_check_value :
    crc16 [0x31, 0x32, 0x33, 0x34, 0x35, 0x36, 0x37, 0x38, 0x39] 0 = 0xBB3D := by decide +kernel
theorem test_crc_table : crcTable 0x80 = 0xA001 ∧ crcTable 0xFF = 0x4040 := by decide
theorem test_frame_checksum_folds_escapes :
    frameChecksum [0x09, 0x40, 0x00, 0x00, 0x00, 0x00, 0x00, 0xFF, 0xFF] = 0xF1 := by decide
theorem test_fill_buffer_R107 :
    fillBuffer 0x01 [0x4D, 0x01] true 15 = (15, f1) ∧ fillBuffer 0x01 [0x4D, 0x01] true 14 = (0, []) := by decide +kernel
theorem test_buffer_size_R106 : bufferSize 0xFF [0xFF] true = 16 := by decide +kernel
theorem test_serialize_R112 : serialize 0x4D01 [] = [0x4D, 0x01] ∧ serialize 0 [7] = [7] := by decide
theorem test_sync_search_R117 :
    syncSearch [0x41, 0xFF, 0xFF, 0x0A] = (1, true) ∧ syncSearch [0xFF, 0xFF, 0xFF, 0x0A] = (1, true) ∧
    syncSearch [0x41, 0x42] = (2, false) ∧ syncSearch [0x41, 0xFF] = (1, false) ∧
    syncSearch [0xFF, 0xFF] = (0, false) := by decide

/-! ### Commands, one step each -/

theorem test_nop_SYS6 :
    after (write 0x00000000 { s0 with cmdStatus := .queueFull, warn := 0x40 }) (fun t => (t.cmdStatus, t.warn)) =
      some (.ok, 0x40) := by decide
theorem test_reset_SYS10 :
    after (write 0x01000000 { s0 with oq := [notice1], warn := 0x08, time := 500, rxLine := [1] })
      (fun t => (t.oq, t.warn, t.time, t.rxLine)) = some ([], 0, 500, [1]) := by decide
/-- P3, step 1: two garbage bytes dropped, F1 accepted and dispatched. -/
theorem test_loop_P3 :
    after (write 0x02000000 { s0 with time := 5, rxLine := [0x41, 0x42] ++ f1 })
      (fun t => (t.stat.garbage, t.warn, t.evt.ftype, t.evt.time)) =
      some (2, 0x01, 0x01, 5) := by decide +kernel
/-- R114's example, with 22 of the 24 bytes of RB_CAP_EFF held. -/
theorem test_read_data_R114 :
    let s := { s0 with params := { vecParams with maxFrameSize := 8, rbCap := 0 }, rb := List.replicate 22 0x41,
                       rxLine := [1, 2, 3] }
    (readData s).rb = List.replicate 22 0x41 ++ [1, 2] ∧ (readData s).rxLine = [3] := by decide +kernel
/-- SCN-8: a size byte below 8; the ten header bytes and one byte of garbage leave RB. -/
theorem test_loop_SCN8 :
    after (write 0x02000000 { s0 with rxLine := [0xFF, 0xFF, 0x07, 0, 0, 0, 0, 0, 0, 0x61, 0x99] })
      (fun t => (memRead 0x024 t, t.stat.garbage, t.stat.frameErrors, t.warn, t.rb)) =
      some (2, 1, 1, 0x03, []) := by decide +kernel
/-- SCN-12: a wrong data byte under the CRC; the frame is dropped whole. -/
theorem test_loop_SCN12 :
    after (write 0x02000000 { s0 with rxLine := f1.set 10 0x4C })
      (fun t => (memRead 0x024 t, t.stat.frameErrors, t.stat.rxFrames, t.rb, t.eng.callout)) =
      some (8, 1, 0, [], .none) := by decide +kernel
/-- SYS-11: STATE and EVT_DATA_0 after F1 at TIME 7 with IE = 1. -/
theorem test_loop_SYS11 :
    after (write 0x02000000 { s0 with time := 7, rxLine := f1, ie := 1 })
      (fun t => (memRead 0x00C t, memRead 0x100 t, memRead 0x094 t)) =
      some (0x44A, 0x0000014D, 7) := by decide +kernel
theorem test_crcInit_R99 : after (write 0x10001234 s0) (·.crcAcc) = some 0x1234 := by decide
theorem test_crcFeed_P1 : after (write 0x11000031 s0) (·.crcAcc) = some 0xD4C1 := by decide
theorem test_chkInit_R101 : after (write 0x120000F0 s0) (·.chkAcc) = some 0xF0 := by decide
theorem test_chkFeed_R102 : after (write 0x13000020 { s0 with chkAcc := 0xF0 }) (·.chkAcc) = some 0x10 := by decide
theorem test_stageClear_R137 :
    after (write 0x20000000 { s0 with stg := { data := [1, 2], subcmd := 0x4D01, retry := 9 } }) (·.stg) =
      some { data := [], subcmd := 0, retry := 9 } := by decide
theorem test_stagePush_R138 : after (write 0x210000FF s0) (·.stg.data) = some [0xFF] := by decide
theorem test_stagePush_full_SEQ16 :
    after (write 0x21000011 { s0 with stg := bigStage }) (fun t => (t.cmdStatus, t.stg.data.length)) =
      some (.stageFull, 233) := by decide +kernel
theorem test_stageSubcmd_R139 : after (write 0x22004D01 s0) (·.stg.subcmd) = some 0x4D01 := by decide
theorem test_stageRetry_R140 : after (write 0x230001F4 s0) (·.stg.retry) = some 500 := by decide
theorem test_sendMessage_R133 :
    after (write 0x30020101 { s0 with stg := { data := [0x4D, 0x01], subcmd := 0, retry := 0 } }) (·.oq) =
      some [request1] := by decide
theorem test_sendMessage_oversize_SEQ17 :
    after (write 0x30000010 { s0 with stg := bigStage }) (fun t => (t.cmdStatus, t.oq, t.warn)) =
      some (.oversize, [], 0x40) := by decide +kernel
theorem test_sendMessageNa_R134 :
    after (write 0x3100007C s0) (·.oq) = some [{ notice1 with ftype := 0x7C }] := by decide
/-- ERR-8: OVERSIZE is tested before QUEUE_FULL. -/
theorem test_sendMessageNa_ERR8 :
    after (write 0x31000001 { s0 with oq := List.replicate 8 notice1, stg := bigStage }) (·.cmdStatus) =
      some .oversize := by decide +kernel
/-- R135: the 13 bytes of an empty answer 0x71 with the CRC of the message. -/
theorem test_sendAnswer_R135 :
    after (write 0x32000071 inMessage) (·.txLine) =
      some [0xFF, 0xFF, 0x08, 0x40, 0x00, 0x00, 0x00, 0x00, 0x00, 0x71, 0xB9, 0x46, 0x80] := by decide +kernel
/-- ERR-6 and ERR-5: NOT_IN_HANDLER is tested before BAD_OPERAND. -/
theorem test_sendAnswer_reserved :
    after (write 0x32000302 s0) (·.cmdStatus) = some .notInHandler ∧
    after (write 0x32000302 inMessage) (fun t => (t.cmdStatus, t.txLine)) = some (.badOperand, []) := by decide
theorem test_noAnswer_R136 : after (write 0x33000000 inMessage) (·.eng.noAnswer) = some true := by decide
theorem test_noAnswer_ERR3 : after (write 0x33000000 s0) (·.cmdStatus) = some .notInHandler := by decide
theorem test_handlerReturn_R132 :
    after (write 0x34000000 { inWait with eng := { inWait.eng with callout := .answer } })
      (fun t => (t.oq, t.eng.state, t.eng.callout)) = some ([], .idle, .none) := by decide
/-- SEQ-5 and R34: an unanswered message, reported with an error. -/
theorem test_handlerReturn_warns :
    after (write 0x34000001 inMessage) (fun t => (t.hresult, t.warn, t.stat.noAnswer)) =
      some (.unsupportedMessage, 0x30, 1) := by decide

/-! ### Bus: SYS-1, SYS-3, SYS-8 and the illegal word SYS-5 -/

theorem test_read_SYS1 : memRead 0x000 s0 = 0x48414552 ∧ memRead 0x003 s0 = 0x48414552 ∧ memRead 0x058 s0 = 0 := by
  decide
theorem test_write_warn_SYS3 :
    after (perform (.hostWrite 0x40000010 0x01) { s0 with warn := 0x09 }) (·.warn) = some 0x08 := by decide
theorem test_tick_SYS8 : after (perform .tick { s0 with time := 0xFFFFFFFF }) (·.time) = some 0 := by decide
theorem test_illegal_SYS5 :
    after (write 0x7F000000 s0) id = some { s0 with cmdStatus := .illegalOpcode, warn := 0x40 } := by decide +kernel

/-! ### Witnesses: for each obligation with hypotheses, concrete data that meet them, each clause at a boundary -/

/-- A field of the next state, as the existence of that state. -/
theorem after_some {α : Type} {o : Host.Outcome State Fault Refusal} {f : State → α} {v : α} (h : after o f = some v) :
    ∃ t, o = .next t ∧ f t = v := by
  cases o with
  | next t => exact ⟨t, rfl, Option.some.inj h⟩
  | fault r => cases h
  | refused r => cases h

/-- The host about to write LOOP to CMD. -/
def loopNext (s : State) : State := { s with pending := [.hostWrite 0x40000004 0x02000000] }

/-- A request queued in IDLE, nothing sent yet. -/
def idleRequest : State := { s0 with oq := [request1] }

theorem vecParams_legal : vecParams.Legal := by decide

/-- Quiet states with any queue, sequencer and pending steps meet the invariant when queue and sequencer agree. -/
theorem quiet_inv (oq : List OutItem) (state : EngState) (pending : List AgentStep)
    (h1 : oq.length ≤ 8) (h2 : ∀ i ∈ oq, i.Ok vecParams) (h3 : ∀ i ∈ oq, i.retries ≠ 0)
    (h4 : state = .waiting → ∃ h ∈ oq.head?, h.expectsAnswer = true) :
    MachineInv { s0 with oq := oq, eng := { s0.eng with state := state }, pending := pending } where
  params := vecParams_legal
  rbBound := Nat.zero_le _
  fifoBound := Nat.zero_le _
  fifoData := fun _ h => nomatch h
  oqBound := h1
  oqItems := h2
  oqTail := fun i h => h3 i (List.mem_of_mem_drop h)
  oqHead := fun _ i h => h3 i (List.mem_of_mem_head? h)
  staging := Nat.zero_le _
  request := fun h => h4 h.1
  message := by intro h; cases h
  reply := by rintro (h | h) <;> cases h
  processing := by constructor <;> (intro h; cases h)
  event := fun h => absurd rfl h
  eventData := by
    refine ⟨List.length_replicate, Nat.zero_le _, fun k _ => ?_⟩
    show byteAt (List.replicate 256 0) k = 0
    unfold byteAt
    rw [List.getD_eq_getElem?_getD, List.getElem?_replicate]
    split <;> rfl
  scanner := rfl
  frameErr := rfl

theorem request1_ok (r : Byte) (h : r.toNat ≤ 6) : OutItem.Ok vecParams { request1 with retries := r } :=
  ⟨show request1.data.length ≤ maxDataSize vecParams by decide, h, fun h => nomatch h⟩

theorem inv_s0 : MachineInv s0 :=
  quiet_inv [] .idle [] (by decide) (fun _ h => nomatch h) (fun _ h => nomatch h) (fun h => nomatch h)

theorem inv_idleRequest (pending : List AgentStep) : MachineInv { idleRequest with pending := pending } :=
  quiet_inv [request1] .idle pending (by decide)
    (fun i h => by rw [List.mem_singleton.mp h]; exact request1_ok 3 (by decide))
    (fun i h => by rw [List.mem_singleton.mp h]; decide) (fun h => nomatch h)

theorem inv_inWait (pending : List AgentStep) : MachineInv { inWait with pending := pending } :=
  quiet_inv [{ request1 with retries := 2 }] .waiting pending (by decide)
    (fun i h => by rw [List.mem_singleton.mp h]; exact request1_ok 2 (by decide))
    (fun i h => by rw [List.mem_singleton.mp h]; decide) (fun _ => ⟨_, rfl, rfl⟩)

/-! #### Command words -/

theorem witness_EncodeOfDecode : decode 0x32FFFE02 = .ok (.sendAnswer 0x02 .on) := by decide
theorem witness_IgnoredBitsAreIgnored :
    opcode 0x02FFFFFF = opcode 0x02000000 ∧
    0x02FFFFFF &&& usedBits (opcode 0x02FFFFFF) = (0x02000000 : Word) &&& usedBits (opcode 0x02FFFFFF) ∧
    opcode 0x32FFFE02 = opcode 0x32000202 ∧
    0x32FFFE02 &&& usedBits (opcode 0x32FFFE02) = (0x32000202 : Word) &&& usedBits (opcode 0x32FFFE02) := by decide
/-- Opcodes at the edges of the map's gaps, and the example of R62. -/
theorem witness_IllegalOpcodeFails :
    let map : List Byte := [0x00, 0x01, 0x02, 0x10, 0x11, 0x12, 0x13, 0x20, 0x21, 0x22, 0x23, 0x30, 0x31, 0x32, 0x33, 0x34]
    (0x03000000 : Word).extractLsb' 24 8 ∉ map ∧ (0x1FFFFFFF : Word).extractLsb' 24 8 ∉ map ∧
    (0x35000000 : Word).extractLsb' 24 8 ∉ map ∧ (0x7F000000 : Word).extractLsb' 24 8 ∉ map :=
  ⟨by decide, by decide, by decide, by decide⟩
theorem witness_StepRunsDecodedCommand :
    (loopNext s0).pending = .hostWrite 0x40000004 0x02000000 :: [] ∧
    regOffset ((0x40000004 : Word) - (loopNext s0).params.windowBase).toNat = 0x004 ∧ decode 0x02000000 = .ok .loop := by
  decide
/-- The decoding clause of each command's statement: a word with its opcode, the other bits all set. -/
theorem witness_opcode_clauses :
    (0x00FFFFFF : Word).extractLsb' 24 8 = 0x00 ∧ (0x01FFFFFF : Word).extractLsb' 24 8 = 0x01 ∧
    (0x10FFFFFF : Word).extractLsb' 24 8 = 0x10 ∧ (0x11FFFFFF : Word).extractLsb' 24 8 = 0x11 ∧
    (0x12FFFFFF : Word).extractLsb' 24 8 = 0x12 ∧ (0x13FFFFFF : Word).extractLsb' 24 8 = 0x13 ∧
    (0x20FFFFFF : Word).extractLsb' 24 8 = 0x20 ∧ (0x21FFFFFF : Word).extractLsb' 24 8 = 0x21 ∧
    (0x22FFFFFF : Word).extractLsb' 24 8 = 0x22 ∧ (0x23FFFFFF : Word).extractLsb' 24 8 = 0x23 ∧
    (0x30FFFFFF : Word).extractLsb' 24 8 = 0x30 ∧ (0x31FFFFFF : Word).extractLsb' 24 8 = 0x31 ∧
    (0x32FFFFFF : Word).extractLsb' 24 8 = 0x32 ∧ (0x33FFFFFF : Word).extractLsb' 24 8 = 0x33 ∧
    (0x34FFFFFF : Word).extractLsb' 24 8 = 0x34 := by decide

/-! #### CRC, checksum, codec -/

theorem witness_BlocksComputeCrcAndChecksum :
    ({ s0 with pending := expand vecParams (.crcBlock 0xFFFF [0x31, 0x32]) ++ [.tick] } : State).pending =
      expand s0.params (.crcBlock 0xFFFF [0x31, 0x32]) ++ [.tick] ∧
    ({ s0 with pending := expand vecParams (.chkBlock 0xF0 [0x20]) } : State).pending =
      expand s0.params (.chkBlock 0xF0 [0x20]) ++ [] := by decide
theorem witness_LogicalFrameLayout :
    4 ≤ 4 ∧ 8 ≤ 8 ∧ 1 < [(0x4D : Byte), 0x01].length ∧ [(0x4D : Byte), 0x01].length ≤ 247 ∧ (logicalFrame 0x01 [0x4D, 0x01] true).length = 15 := by decide
theorem witness_FillBufferNeedsExactRoom :
    let l := logicalFrame 0x01 [0x4D, 0x01] true
    14 < l.length + (l.drop 2).count 0xFF ∧ l.length + (l.drop 2).count 0xFF ≤ 15 := by decide +kernel
theorem witness_NoSeparatorPairInsideFrame :
    vecParams.Legal ∧ (List.replicate 233 (0xFF : Byte)).length ≤ maxDataSize vecParams ∧
    (physical (logicalFrame 0xFF [0xFF] false))[9]? = some 0xFF := by decide +kernel
theorem witness_FrameRoundTrip :
    let s := { s0 with rb := physical (logicalFrame 0x01 (List.replicate 233 0xFF) true) }
    s.params.Legal ∧ (List.replicate 233 (0xFF : Byte)).length ≤ maxDataSize s.params ∧ s.scn = Scanner.idle ∧
    s.rb = physical (logicalFrame 0x01 (List.replicate 233 0xFF) true) ∧ s.fifo.length < s.params.fifoCap :=
  ⟨by decide, by decide +kernel, rfl, rfl, by decide⟩
theorem witness_SerializePutsSubcommandFirst : (0 : Half) = 0 ∧ (0x0100 : Half) ≠ 0 := by decide

/-! #### Queues -/

theorem witness_RbPushSliceStoresWhatFits : s0.rb.length ≤ rbCapEff s0.params := by decide
theorem witness_RbPeekFaultsOutside :
    ({ s0 with rb := [0xFF, 0xFF, 0x0A] } : State).rb.length ≤ 3 ∧
    2 < ({ s0 with rb := [0xFF, 0xFF, 0x0A] } : State).rb.length := by decide
theorem witness_FifoPushDropsOldest :
    ({ s0 with fifo := List.replicate 7 frame1 } : State).fifo.length ≠ s0.params.fifoCap ∧
    ({ s0 with fifo := List.replicate 8 frame1 } : State).fifo.length = s0.params.fifoCap := by decide
theorem witness_QueueMovesInOrder :
    ∃ t, step (loopNext idleRequest) = .next t ∧ t.oq = [{ request1 with retries := 2 }] :=
  after_some (by decide +kernel)
/-- The clause of RESET: a queue emptied by the word 0x01000000. -/
theorem witness_QueueMovesInOrder_reset :
    let s := { s0 with oq := [notice1, request1], pending := [.hostWrite 0x40000004 0x01000000] }
    (∃ t, step s = .next t ∧ t.oq = []) ∧
    (let off := ((0x40000004 : Word) - s.params.windowBase).toNat; off % 4096 - off % 4 = 0x004) ∧
    decode 0x01000000 = .ok .reset := ⟨after_some (by decide), by decide, by decide⟩
theorem witness_TransmitLineOnlyGrows : ∃ t, step (loopNext idleRequest) = .next t ∧ t.txLine = f1 :=
  after_some (by decide +kernel)

/-! #### Scanner -/

theorem witness_SyncSearchFindsFirstStart :
    syncSearch [0xFF, 0xFF, 0xFF, 0x0A] = (1, true) ∧ syncSearch [0x41, 0xFF, 0xFF] = (1, false) := by decide
/-- An attempt locked at 1000: stale at 1301, not at 1300 (R116). -/
theorem witness_StaleAttemptDropped :
    let s := { s0 with rb := [0xFF, 0xFF, 0x0A],
                       scn := { Scanner.idle with phase := .header, consumed := 2, asm := [sep, sep], start := 1000 } }
    (s.scn.phase ≠ .sync ∧ ((1301 : Word) - s.scn.start).toNat > s.params.frameTimeoutMs) ∧
    ((1300 : Word) - s.scn.start).toNat ≤ s.params.frameTimeoutMs ∧ s0.scn.phase = .sync := by decide
theorem witness_ScannerConsumesFromFront :
    ∃ t, processData 0 { s0 with rb := [0x41, 0xFF] } = .ok t ∧ t.rb = [0xFF] := ⟨_, rfl, by decide +kernel⟩
theorem witness_ScannerLeavesRoom :
    MachineInv s0 ∧ ∃ t, processData 0 (readData s0) = .ok t ∧ t.rb = [] := ⟨inv_s0, _, rfl, by decide +kernel⟩

/-! #### LOOP and the sequencer -/

theorem witness_LoopCompletes :
    (s0.eng.callout = .none ∧ s0.eng.state ≠ .waiting) ∧
    (inWait.eng.callout = .none ∧ inWait.eng.state = .waiting ∧ inWait.oq ≠ []) := by decide
theorem witness_QuietLoopChangesNothing :
    s0.eng.callout = .none ∧ s0.eng.state = .idle ∧ s0.rxLine = [] ∧ s0.rb = [] ∧ s0.scn = Scanner.idle ∧
    s0.fifo = [] ∧ s0.oq = [] := by decide
theorem witness_IdleLoop_dispatch :
    let s := { s0 with fifo := [frame1] }
    s.eng.callout = .none ∧ processData s.time (readData s) = .ok s ∧ s.eng.state = .idle ∧ s.fifo = [] ++ [frame1] ∧
    frame1.data.length ≤ 255 := ⟨rfl, rfl, rfl, rfl, by decide⟩
theorem witness_IdleLoop_shed :
    let s := { s0 with fifo := List.replicate 8 frame1 }
    s.eng.callout = .none ∧ processData s.time (readData s) = .ok s ∧ s.eng.state = .idle ∧
    s.fifo = List.replicate 7 frame1 ++ [frame1] := ⟨rfl, rfl, rfl, rfl⟩
theorem witness_IdleLoop_quiet :
    s0.eng.callout = .none ∧ processData s0.time (readData s0) = .ok s0 ∧ s0.eng.state = .idle ∧ s0.fifo = [] ∧
    s0.oq = [] := ⟨rfl, rfl, rfl, rfl, rfl⟩
/-- The cooldown has elapsed at exactly COOLDOWN_MS and not one tick before (R19). -/
theorem witness_IdleLoop_send :
    let s := { idleRequest with time := 100, eng := { s0.eng with coolArmed := true } }
    (s.eng.callout = .none ∧ processData s.time (readData s) = .ok s ∧ s.eng.state = .idle ∧ s.fifo = [] ∧
      s.oq = request1 :: []) ∧
    ((s.eng.coolArmed = false ∨ (s.time - s.eng.lastSend).toNat ≥ s.params.cooldownMs) ∧
      (s.time - s.eng.retryBase).toNat ≥ s.eng.retryWait.toNat) ∧
    ¬ ((s.eng.coolArmed = false ∨ ((99 : Word) - s.eng.lastSend).toNat ≥ s.params.cooldownMs) ∧
      ((99 : Word) - s.eng.retryBase).toNat ≥ s.eng.retryWait.toNat) :=
  ⟨⟨rfl, rfl, rfl, rfl, rfl⟩, by decide, by decide⟩
theorem witness_IdleLoop_wait :
    let s := { idleRequest with time := 99, eng := { s0.eng with coolArmed := true } }
    s.eng.callout = .none ∧ processData s.time (readData s) = .ok s ∧ s.eng.state = .idle ∧ s.fifo = [] ∧
    s.oq = request1 :: [] := ⟨rfl, rfl, rfl, rfl, rfl⟩
theorem witness_SendHeadTransmits :
    idleRequest.oq = request1 :: [] ∧ request1.expectsAnswer = true ∧
    ({ s0 with oq := [notice1] } : State).oq = notice1 :: [] ∧ notice1.expectsAnswer = false := by decide
/-- A request outstanding since 0: late at 201, not at 200 (R131). -/
theorem witness_WaitingLoop_giveUp :
    let s := { inWait with time := 201, oq := [{ request1 with retries := 0 }] }
    (s.eng.callout = .none ∧ processData s.time (readData s) = .ok s ∧ s.eng.state = .waiting ∧
      s.oq = { request1 with retries := 0 } :: []) ∧ (s.time - s.eng.ansBase).toNat > s.params.answerTimeoutMs :=
  ⟨⟨rfl, rfl, rfl, rfl⟩, by decide⟩
theorem witness_WaitingLoop_retry :
    let s := { inWait with time := 201 }
    (s.eng.callout = .none ∧ processData s.time (readData s) = .ok s ∧ s.eng.state = .waiting ∧
      s.oq = { request1 with retries := 2 } :: []) ∧ (s.time - s.eng.ansBase).toNat > s.params.answerTimeoutMs :=
  ⟨⟨rfl, rfl, rfl, rfl⟩, by decide⟩
theorem witness_WaitingLoop_answer :
    let s := { inWait with time := 200, fifo := [frame1] }
    (s.eng.callout = .none ∧ processData s.time (readData s) = .ok s ∧ s.eng.state = .waiting ∧
      s.oq = { request1 with retries := 2 } :: [] ∧ s.fifo = frame1 :: []) ∧
    ¬ (s.time - s.eng.ansBase).toNat > s.params.answerTimeoutMs :=
  ⟨⟨rfl, rfl, rfl, rfl, rfl⟩, by decide⟩
theorem witness_WaitingLoop_nothing :
    let s := { inWait with time := 200 }
    (s.eng.callout = .none ∧ processData s.time (readData s) = .ok s ∧ s.eng.state = .waiting ∧
      s.oq = { request1 with retries := 2 } :: [] ∧ s.fifo = []) ∧
    ¬ (s.time - s.eng.ansBase).toNat > s.params.answerTimeoutMs :=
  ⟨⟨rfl, rfl, rfl, rfl, rfl⟩, by decide⟩
theorem witness_HandlerReturnLeavesCallout :
    s0.eng.callout = .none ∧
    (inMessage.eng.callout = .message ∧ inMessage.eng.answerSent = false ∧ inMessage.eng.noAnswer = false) ∧
    (let e := { inMessage.eng with answerSent := true }; e.callout = .message ∧ (e.answerSent = true ∨ e.noAnswer = true)) ∧
    (let e := { inMessage.eng with noAnswer := true }; e.callout = .message ∧ (e.answerSent = true ∨ e.noAnswer = true)) ∧
    ({ inWait.eng with callout := .answer } : Engine).callout = .answer ∧
    ({ inWait.eng with callout := .timeout } : Engine).callout = .timeout := by decide
/-- The three clauses of SEND_MESSAGE and of SEND_MESSAGE_NA: 235, 233 bytes with a full queue, 233 with room for one. -/
theorem witness_SendMessage :
    (let s := { s0 with stg := bigStage }; (serialize s.stg.subcmd s.stg.data).length > maxDataSize s.params) ∧
    (let s := { s0 with stg := { bigStage with subcmd := 0 }, oq := List.replicate 8 notice1 };
      (serialize s.stg.subcmd s.stg.data).length ≤ maxDataSize s.params ∧ s.oq.length = s.params.oqCap) ∧
    (let s := { s0 with stg := { bigStage with subcmd := 0 }, oq := List.replicate 7 notice1 };
      (serialize s.stg.subcmd s.stg.data).length ≤ maxDataSize s.params ∧ s.oq.length ≠ s.params.oqCap) := by
  decide +kernel
theorem witness_SendAnswerTransmitsAtOnce :
    s0.eng.processing = false ∧ inMessage.eng.processing = true ∧ CrcMode.on ≠ .reserved ∧
    (serialize bigStage.subcmd bigStage.data).length > maxDataSize inMessage.params ∧
    (serialize 0 bigStage.data).length ≤ maxDataSize inMessage.params := by decide +kernel
/-- W[9:8] of a SEND_ANSWER word, the other bits set, at each of its values. -/
theorem witness_SendAnswer_modes :
    (0x32FFFC02 : Word).extractLsb' 8 2 = 0 ∧ (0x32FFFD02 : Word).extractLsb' 8 2 = 1 ∧
    (0x32FFFE02 : Word).extractLsb' 8 2 = 2 ∧ (0x32FFFF02 : Word).extractLsb' 8 2 = 3 := by decide
/-- W[2:0] of a HANDLER_RETURN word, the other bits set, at each of its values. -/
theorem witness_HandlerReturn_results :
    (0x34FFFFF8 : Word).extractLsb' 0 3 = 0 ∧ (0x34FFFFF9 : Word).extractLsb' 0 3 = 1 ∧
    (0x34FFFFFA : Word).extractLsb' 0 3 = 2 ∧ (0x34FFFFFB : Word).extractLsb' 0 3 = 3 ∧
    (0x34FFFFFC : Word).extractLsb' 0 3 = 4 ∧ (0x34FFFFFD : Word).extractLsb' 0 3 = 5 ∧
    (0x34FFFFFE : Word).extractLsb' 0 3 = 6 ∧ (0x34FFFFFF : Word).extractLsb' 0 3 = 7 := by decide
theorem witness_NoAnswerMarksHandler : s0.eng.processing = false ∧ inMessage.eng.processing = true := by decide
theorem witness_StagePushAppends :
    (List.replicate 233 (0x11 : Byte)).length = maxDataSize s0.params ∧
    (List.replicate 232 (0x11 : Byte)).length ≠ maxDataSize s0.params := by decide +kernel
theorem witness_OneRequest_sends :
    MachineInv idleRequest ∧ idleRequest.eng.state = .idle ∧
    ∃ t, exec .loop idleRequest = .next t ∧ t.eng.state = .waiting :=
  ⟨inv_idleRequest [], rfl, after_some (by decide +kernel)⟩
theorem witness_OneRequest_waits :
    MachineInv inWait ∧ inWait.eng.state = .waiting ∧ ∃ t, exec .loop inWait = .next t ∧ t.txLine = [] :=
  ⟨inv_inWait [], rfl, after_some (by decide +kernel)⟩

/-- A request with two retries, the cooldown and the retry interval of an earlier send just elapsed. -/
def unanswered : State :=
  let s := { s0 with stg := { data := [], subcmd := 0x4D01, retry := 201 }, time := 100,
                     eng := { s0.eng with coolArmed := true, retryWait := 100 } }
  let attempt := cmd s.params .loop :: (List.replicate 201 .tick ++ [cmd s.params .loop])
  { s with pending := cmd s.params (.sendMessage 0x01 true 2) :: ((List.replicate 3 attempt).flatten ++ []) }

theorem witness_UnansweredRequestIsRetried :
    (unanswered.params.Legal ∧ unanswered.eng.callout = .none ∧ unanswered.eng.state = .idle ∧
      unanswered.rxLine = [] ∧ unanswered.rb = [] ∧ unanswered.scn = Scanner.idle ∧ unanswered.fifo = [] ∧
      unanswered.oq = [] ∧
      (serialize unanswered.stg.subcmd unanswered.stg.data).length ≤ maxDataSize unanswered.params ∧
      (unanswered.eng.coolArmed = false ∨
        (unanswered.time - unanswered.eng.lastSend).toNat ≥ unanswered.params.cooldownMs) ∧
      (unanswered.time - unanswered.eng.retryBase).toNat ≥ unanswered.eng.retryWait.toNat ∧
      unanswered.params.answerTimeoutMs < 201 ∧ unanswered.params.cooldownMs ≤ 201 ∧
      unanswered.stg.retry.toNat ≤ 201 ∧ 201 < 2 ^ 32) ∧
    (let sends := min (2 : Byte).toNat unanswered.params.maxRetries + 1
     let attempt := cmd unanswered.params .loop :: (List.replicate 201 .tick ++ [cmd unanswered.params .loop])
     unanswered.pending = cmd unanswered.params (.sendMessage 0x01 true 2) ::
       ((List.replicate sends attempt).flatten ++ [])) := ⟨by decide, rfl⟩

/-! #### System, registers, agents -/

/-- The least or the greatest of each parameter that R7 bounds, and two values outside. -/
theorem witness_InstantiationChecksParameters :
    (let p := { vecParams with maxFrameSize := 8, rbCap := 65535, fifoCap := 1, oqCap := 255, maxRetries := 254,
                               answerTimeoutMs := 2147483647 }
     8 ≤ p.maxFrameSize ∧ p.maxFrameSize ≤ 254 ∧ p.rbCap ≤ 65535 ∧ 1 ≤ p.fifoCap ∧ p.fifoCap ≤ 255 ∧
      1 ≤ p.oqCap ∧ p.oqCap ≤ 255 ∧ p.maxRetries ≤ 254 ∧ p.answerTimeoutMs < 2 ^ 31 ∧ p.cooldownMs < 2 ^ 31 ∧
      p.frameTimeoutMs < 2 ^ 31) ∧
    ¬ ({ vecParams with maxFrameSize := 255 } : Params).Legal ∧ ¬ ({ vecParams with oqCap := 0 } : Params).Legal := by
  decide +kernel
/-- For FailedCommandHasNoOtherEffect and CommandErrorsByContext. -/
theorem witness_failed_command :
    (∃ t, exec .noAnswer s0 = .next t ∧ t.cmdStatus = .notInHandler) ∧
    (∃ t, exec .nop s0 = .next t ∧ t.cmdStatus = .ok) ∧ Instr.nop ≠ .reset :=
  ⟨after_some (by decide), after_some (by decide), by decide⟩
theorem witness_RegistersWrittenOnlyByTheirCommands :
    (∃ t, exec (.crcInit 1) s0 = .next t ∧ t.crcAcc = 1) ∧ (∃ t, exec (.chkFeed 1) s0 = .next t ∧ t.chkAcc = 1) ∧
    (∃ t, exec (.stagePush 1) s0 = .next t ∧ t.stg.data = [1]) ∧
    (∃ t, exec .loop { s0 with rxLine := [0xFF] } = .next t ∧ t.rb = [0xFF]) ∧
    (∃ t, exec (.sendAnswer 0x61 .off) inMessage = .next t ∧ t.txLine.length = 11) ∧
    (∃ t, exec (.sendMessageNa 0x61 false) s0 = .next t ∧ t.oq = [notice1]) ∧
    (∃ t, exec (.handlerReturn .runtimeError) inMessage = .next t ∧ t.hresult = .runtimeError) :=
  ⟨after_some (by decide), after_some (by decide), after_some (by decide), after_some (by decide +kernel),
    after_some (by decide +kernel), after_some (by decide), after_some (by decide)⟩
/-- The clauses on ENG, STAT and WARN of RegistersWrittenOnlyByTheirCommands: each premise is met by a step. -/
theorem witness_Registers_eng_stat_warn :
    (∃ t, exec .loop { idleRequest with time := 7 } = .next t ∧
      (t.eng.ansBase, t.eng.retryBase, t.eng.state, t.eng.lastSend, t.eng.coolArmed, t.stat.txFrames) =
        (7, 7, .waiting, 7, true, 1)) ∧
    (∃ t, exec .loop { s0 with rxLine := [0x41] ++ f1 } = .next t ∧
      (t.eng.inUseCrc, t.eng.processing, t.eng.callout, t.stat.garbage, t.stat.rxFrames, t.warn) =
        (true, true, .message, 1, 1, 0x01)) ∧
    (∃ t, exec (.sendAnswer 0x61 .off) inMessage = .next t ∧ (t.eng.answerSent, t.stat.txFrames) = (true, 1)) ∧
    (∃ t, exec .noAnswer inMessage = .next t ∧ t.eng.noAnswer = true) ∧
    (∃ t, exec (.handlerReturn .runtimeError) inMessage = .next t ∧
      (t.eng.callout, t.stat.noAnswer, t.warn) = (.none, 1, 0x30)) ∧
    (∃ t, exec .noAnswer s0 = .next t ∧ t.warn = 0x40) :=
  ⟨after_some (f := fun t => (t.eng.ansBase, t.eng.retryBase, t.eng.state, t.eng.lastSend, t.eng.coolArmed,
      t.stat.txFrames)) (by decide +kernel),
    after_some (f := fun t => (t.eng.inUseCrc, t.eng.processing, t.eng.callout, t.stat.garbage, t.stat.rxFrames, t.warn))
      (by decide +kernel),
    after_some (f := fun t => (t.eng.answerSent, t.stat.txFrames)) (by decide +kernel), after_some (by decide),
    after_some (f := fun t => (t.eng.callout, t.stat.noAnswer, t.warn)) (by decide), after_some (by decide)⟩
theorem witness_CalloutEventReadsBack : (List.replicate 255 (0xFF : Byte)).length ≤ 255 ∧ 63 < 64 ∧ 3 < 4 := by
  decide +kernel
theorem witness_RegisterMapReadsState :
    s0.oq = [] ∧ idleRequest.oq = request1 :: [] ∧ request1.data.length < 256 ∧ s0.fifo.length < 256 ∧
    idleRequest.oq.length < 256 ∧ s0.rb.length < 65536 ∧ s0.scn.consumed < 65536 ∧ s0.scn.asm.length < 512 ∧
    s0.stg.data.length < 256 ∧ 63 < 64 ∧ 3 < 4 ∧ 0x05C % 4 = 0 ∧ 0x0FC % 4 = 0 ∧ 0xFFC % 4 = 0 ∧
    0x05C < 0x060 ∧ 0x0FC < 0x100 ∧ 0xFFC < 4096 := by decide
theorem witness_OffsetsWrapAndAlign : 0x010 % 4 = 0 ∧ 3 < 4 := by decide
theorem witness_HostWriteEffects :
    0x1007 % 4096 - 0x1007 % 4 = 0x004 ∧ 0x013 % 4096 - 0x013 % 4 = 0x010 ∧ 0x017 % 4096 - 0x017 % 4 = 0x014 ∧
    (0x018 % 4096 - 0x018 % 4 ≠ 0x004 ∧ 0x018 % 4096 - 0x018 % 4 ≠ 0x010 ∧ 0x018 % 4096 - 0x018 % 4 ≠ 0x014) := by
  decide
theorem witness_EnvironmentSteps :
    ({ s0 with pending := [.hostRead 0x40000000] } : State).pending = .hostRead 0x40000000 :: [] ∧
    ({ s0 with pending := [.rxArrive 0x41] } : State).pending = .rxArrive 0x41 :: [] ∧
    ({ s0 with pending := [.tick] } : State).pending = .tick :: [] ∧ s0.pending = [] := by decide
theorem witness_StepKeepsInvariant :
    MachineInv (loopNext idleRequest) ∧ ∃ t, step (loopNext idleRequest) = .next t ∧ t.eng.state = .waiting :=
  ⟨inv_idleRequest _, after_some (by decide +kernel)⟩
theorem witness_InvariantStatesNeverStop : MachineInv (loopNext inWait) := inv_inWait _

end Sys2Proof.Tests
end

section
/-! The register window (20_memory.md R48): a host access sees its offset only through `regOffset`, so facts about
which offsets name the same register are facts about `regOffset`. -/

namespace Sys2Proof.Machine

/-- Whole windows and the two low bits do not reach the register offset (R48). -/
theorem regOffset_add_window_add_low {off j : Nat} (k : Nat) (haligned : off % 4 = 0) (hj : j < 4) :
    regOffset (off + 4096 * k + j) = regOffset off := by
  unfold regOffset
  omega

theorem memRead_eq_of_regOffset_eq {off off' : Nat} (h : regOffset off = regOffset off') (s : State) :
    memRead off s = memRead off' s :=
  congrArg (readReg · s) h

theorem memWrite_eq_of_regOffset_eq {off off' : Nat} (h : regOffset off = regOffset off') (v : Word) (s : State) :
    memWrite off v s = memWrite off' v s := by
  unfold memWrite
  rw [h]

/-- Settles O55: both offsets have one register offset, which is all that a read or a write sees of them. -/
theorem offsetsWrapAndAlign : Obligations.OffsetsWrapAndAlign := by
  intro off k j v s haligned hj
  have hreg : regOffset (off + 4096 * k + j) = regOffset off := regOffset_add_window_add_low k haligned hj
  exact ⟨memRead_eq_of_regOffset_eq hreg s, memWrite_eq_of_regOffset_eq hreg v s⟩

end Sys2Proof.Machine
end

section
/-! What the decoder sees of a command word (30_encoding.md R59 to R63): the opcode selects the command, and an operand
is read from bits that the command's format uses. -/

namespace Sys2Proof

/-- A command is read only from a word with that command's opcode. -/
theorem opcode_of_decode_ok {w : Word} {i : Instr} (h : decode w = .ok i) : opcode w = i.opcode := by
  unfold decode at h
  split at h <;> cases h <;> assumption

/-- The sixteen opcodes of the map R61. -/
def opcodeMap : List Byte :=
  [0x00, 0x01, 0x02, 0x10, 0x11, 0x12, 0x13, 0x20, 0x21, 0x22, 0x23, 0x30, 0x31, 0x32, 0x33, 0x34]

theorem opcode_mem_opcodeMap (i : Instr) : i.opcode ∈ opcodeMap := by
  cases i <;> simp [Instr.opcode, opcodeMap]

theorem decode_error_of_opcode_not_mem {w : Word} (h : opcode w ∉ opcodeMap) : ∃ e, decode w = .error e := by
  cases hd : decode w with
  | ok i => exact absurd (opcode_of_decode_ok hd ▸ opcode_mem_opcodeMap i) h
  | error e => exact ⟨e, rfl⟩

theorem getLsbD_eq_of_and_eq {n k : Nat} {v v' m : BitVec n} (h : v &&& m = v' &&& m) (hm : m.getLsbD k = true) :
    v.getLsbD k = v'.getLsbD k := by
  simpa [hm] using congrArg (BitVec.getLsbD · k) h

/-- Two words that agree under a mask agree in every field that the mask covers. -/
theorem extractLsb'_eq_of_and_eq {n lo len : Nat} {v v' m : BitVec n} (h : v &&& m = v' &&& m)
    (hm : m.extractLsb' lo len = BitVec.allOnes len) : v.extractLsb' lo len = v'.extractLsb' lo len := by
  have hfield := congrArg (BitVec.extractLsb' lo len) h
  simpa [BitVec.extractLsb'_and, hm] using hfield

/-- R63: no ignored bit reaches the decoder; each operand's field lies inside the bits its format uses. -/
theorem decode_eq_of_usedBits_eq {w w' : Word} (hop : opcode w = opcode w')
    (hused : w &&& usedBits (opcode w) = w' &&& usedBits (opcode w)) : decode w = decode w' := by
  have extract {lo len : Nat} (hm : (usedBits (opcode w)).extractLsb' lo len = BitVec.allOnes len) :
      w.extractLsb' lo len = w'.extractLsb' lo len := extractLsb'_eq_of_and_eq hused hm
  have hB (hm : (usedBits (opcode w)).extractLsb' 0 8 = BitVec.allOnes 8) : fieldB w = fieldB w' := extract hm
  have hH (hm : (usedBits (opcode w)).extractLsb' 0 16 = BitVec.allOnes 16) : fieldH w = fieldH w' := extract hm
  have hT (hm : (usedBits (opcode w)).extractLsb' 0 24 = BitVec.allOnes 24) : fieldT w = fieldT w' := extract hm
  have hR (hm : (usedBits (opcode w)).extractLsb' 16 8 = BitVec.allOnes 8) : fieldR w = fieldR w' := extract hm
  have hM (hm : (usedBits (opcode w)).extractLsb' 8 2 = BitVec.allOnes 2) : fieldM w = fieldM w' := extract hm
  have hRes (hm : (usedBits (opcode w)).extractLsb' 0 3 = BitVec.allOnes 3) : fieldRes w = fieldRes w' := extract hm
  have hC (hm : (usedBits (opcode w)).getLsbD 8 = true) : fieldC w = fieldC w' := getLsbD_eq_of_and_eq hused hm
  unfold decode
  rw [← hop]
  split
  case h_4 h | h_10 h => rw [hH (h ▸ rfl)]
  case h_5 h | h_6 h | h_7 h | h_9 h => rw [hB (h ▸ rfl)]
  case h_11 h => rw [hT (h ▸ rfl)]
  case h_12 h => rw [hB (h ▸ rfl), hC (h ▸ rfl), hR (h ▸ rfl)]
  case h_13 h => rw [hB (h ▸ rfl), hC (h ▸ rfl)]
  case h_14 h => rw [hB (h ▸ rfl), hM (h ▸ rfl)]
  case h_16 h => rw [hRes (h ▸ rfl)]
  -- The commands without operands, and an opcode outside the map.
  all_goals rfl

/-- R63: the reserved CRC mode of SEND_ANSWER is the only reserved operand value. -/
theorem wellFormed_eq_false_iff (i : Instr) : i.wellFormed = false ↔ ∃ ft, i = .sendAnswer ft .reserved := by
  constructor
  · intro h
    cases i with
    | sendAnswer ft m =>
      cases m with
      | reserved => exact ⟨ft, rfl⟩
      | inherit | off | on => cases h
    | _ => cases h
  · rintro ⟨ft, rfl⟩
    rfl

end Sys2Proof

namespace Sys2Proof.Machine

/-- A word is executed through what it decodes to and in no other way (45_system.md R145). -/
theorem execute_eq_of_decode_eq {w w' : Word} (h : decode w = decode w') (s : State) : execute w s = execute w' s := by
  unfold execute
  rw [h]

/-- A word that is no command fails with ILLEGAL_OPCODE (R62). -/
theorem execute_of_decode_error {w : Word} {e : DecodeError} (h : decode w = .error e) (s : State) :
    execute w s = .next (cmdFail .illegalOpcode s) := by
  unfold execute
  rw [h]

/-- Settles O3: words that agree in opcode and used bits decode alike, and execution sees only what a word decodes to. -/
theorem ignoredBitsAreIgnored : Obligations.IgnoredBitsAreIgnored :=
  ⟨fun _ _ s hop hused => execute_eq_of_decode_eq (decode_eq_of_usedBits_eq hop hused) s, wellFormed_eq_false_iff⟩

/-- Settles O4: every command's opcode is in the map, so a word with another opcode decodes to none. -/
theorem illegalOpcodeFails : Obligations.IllegalOpcodeFails := by
  intro w s hmap
  obtain ⟨e, he⟩ := decode_error_of_opcode_not_mem hmap
  rw [execute_of_decode_error he, cmdFail_eq, warnCmdErr]

end Sys2Proof.Machine
end

section
/-! The logical frame of 30_encoding.md R64: ten header bytes, the data, the checksum and, with CRC, the two CRC bytes.
Each part is read at its positions, and the covered range is cut out between the separators and the checksum. -/

namespace Sys2Proof.Machine

@[simp] theorem headerBytes_length (n : Nat) (c : Bool) (ft : Byte) : (headerBytes n c ft).length = 10 := by
  simp [headerBytes]

theorem headerBytes_getElem? {k : Nat} (hk : k < 10) (n : Nat) (c : Bool) (ft : Byte) :
    (headerBytes n c ft)[k]? = some (headerByte k n c ft) := by
  simp [headerBytes, hk]

/-- Positions 4 to 8 of a header are reserved and 0 (R66, R67). -/
theorem headerByte_reserved {k : Nat} (hlo : 4 ≤ k) (hhi : k ≤ 8) (n : Nat) (c : Bool) (ft : Byte) :
    headerByte k n c ft = 0 := by
  interval_cases k <;> rfl

/-- What follows the data: the checksum and, with CRC, the CRC high byte first. -/
def frameTrailer (ft : Byte) (d : List Byte) (c : Bool) : List Byte :=
  frameChecksum (coveredRange ft d c) :: if c then frameCrcBytes (coveredRange ft d c) else []

theorem logicalFrame_eq_append (ft : Byte) (d : List Byte) (c : Bool) :
    logicalFrame ft d c = headerBytes d.length c ft ++ (d ++ frameTrailer ft d c) := by
  simp [logicalFrame, frameTrailer]

theorem logicalFrame_getElem?_header {k : Nat} (hk : k < 10) (ft : Byte) (d : List Byte) (c : Bool) :
    (logicalFrame ft d c)[k]? = some (headerByte k d.length c ft) := by
  rw [logicalFrame_eq_append, List.getElem?_append_left (by simpa using hk), headerBytes_getElem? hk]

theorem logicalFrame_getElem?_data {k : Nat} {d : List Byte} (hk : k < d.length) (ft : Byte) (c : Bool) :
    (logicalFrame ft d c)[10 + k]? = d[k]? := by
  rw [logicalFrame_eq_append, List.getElem?_append_right (by simp)]
  simp [List.getElem?_append_left hk]

theorem logicalFrame_getElem?_trailer (k : Nat) (ft : Byte) (d : List Byte) (c : Bool) :
    (logicalFrame ft d c)[10 + d.length + k]? = (frameTrailer ft d c)[k]? := by
  rw [logicalFrame_eq_append, List.getElem?_append_right (by simp; omega), List.getElem?_append_right (by simp; omega)]
  congr 1
  simp only [headerBytes_length]
  omega

/-- The covered range (R68) is the frame without its two separators and its trailer. -/
theorem logicalFrame_covered (ft : Byte) (d : List Byte) (c : Bool) :
    ((logicalFrame ft d c).take (10 + d.length)).drop 2 = coveredRange ft d c := by
  have hpre : (headerBytes d.length c ft ++ d).length = 10 + d.length := by simp
  rw [logicalFrame_eq_append, ← List.append_assoc, ← hpre, List.take_left, List.drop_append_of_le_length (by simp)]
  rfl

/-- R92: the checksum is the sum of the bytes modulo 256. -/
theorem checksum_eq_ofNat_sum (v : List Byte) (init : Byte) :
    checksum v init = BitVec.ofNat 8 (init.toNat + (v.map BitVec.toNat).sum) := by
  induction v generalizing init with
  | nil => simp [checksum]
  | cons b v ih =>
    calc checksum (b :: v) init
      _ = checksum v (init + b) := rfl
      _ = BitVec.ofNat 8 ((init + b).toNat + (v.map BitVec.toNat).sum) := ih _
      _ = _ := by
        apply BitVec.eq_of_toNat_eq
        simp [Nat.add_assoc]

/-- R97: with the escapes, each covered separator adds one post-byte to the sum. -/
theorem frameChecksum_eq_ofNat_sum (v : List Byte) :
    frameChecksum v = BitVec.ofNat 8 ((v.map BitVec.toNat).sum + 0x55 * v.count 0xFF) := by
  simp [frameChecksum, checksum_eq_ofNat_sum, post, sep, BitVec.ofNat_add, BitVec.ofNat_mul]

/-- Settles O13: each clause reads the frame in one of its parts, header, data or trailer. -/
theorem logicalFrameLayout : Obligations.LogicalFrameLayout := by
  intro ft d c
  dsimp only
  have header {k : Nat} (hk : k < 10) := logicalFrame_getElem?_header hk ft d c
  have trailer (k : Nat) := logicalFrame_getElem?_trailer k ft d c
  rw [logicalFrame_covered, ← frameChecksum_eq_ofNat_sum]
  refine ⟨?length, header (by decide), header (by decide), fun _ => header (by decide), header (by decide),
    ?reserved, header (by decide), fun k hk => logicalFrame_getElem?_data hk ft c, trailer 0, ?crc⟩
  case length =>
    rw [logicalFrame_length]
    cases c <;> simp [trailerLen] <;> omega
  case reserved =>
    intro k hlo hhi
    rw [header (by omega), headerByte_reserved hlo hhi]
  case crc =>
    rintro rfl
    have hhigh := trailer 1
    have hlow := trailer 2
    rw [show 10 + d.length + 1 = 11 + d.length by omega] at hhigh
    rw [show 10 + d.length + 2 = 12 + d.length by omega] at hlow
    exact ⟨hhigh, hlow⟩

end Sys2Proof.Machine
end

section
/-! The ring buffer RB and the frame FIFO (40_ring_fifo.md sections 1 and 2): what fits is stored, a read outside is a
fault, and a full FIFO gives up its oldest frame. -/

namespace Sys2Proof.Machine

/-- What is pushed at once never exceeds the free space, so RB stays within its capacity (R79). -/
theorem rbPushSlice_rb_length_le {s : State} (h : s.rb.length ≤ rbCapEff s.params) (bs : List Byte) :
    (rbPushSlice bs s).2.rb.length ≤ rbCapEff s.params := by
  have hroom : s.rb.length + rbFree s = rbCapEff s.params := Nat.add_sub_of_le h
  rw [rbPushSlice_eq]
  calc (s.rb ++ bs.take (rbFree s)).length
    _ = s.rb.length + (bs.take (rbFree s)).length := List.length_append
    _ ≤ s.rb.length + rbFree s := Nat.add_le_add_left (List.length_take_le _ _) _
    _ = rbCapEff s.params := hroom

/-- Settles O20: R79 is the operation as the model defines it, and what it takes fits into the free space. -/
theorem rbPushSliceStoresWhatFits : Obligations.RbPushSliceStoresWhatFits :=
  fun bs _ => ⟨rfl, fun hcap => rbPushSlice_rb_length_le hcap bs⟩

/-- Settles O21: the index is outside RB or inside it. -/
theorem rbPeekFaultsOutside : Obligations.RbPeekFaultsOutside :=
  fun _ _ => ⟨rbPeek_of_ge, rbPeek_of_lt⟩

/-- Settles O22: the FIFO has room or is full; WARN[2] is the mask 0x04. -/
theorem fifoPushDropsOldest : Obligations.FifoPushDropsOldest :=
  fun _ _ => ⟨fifoPush_room, fifoPush_full⟩

end Sys2Proof.Machine
end

section
/-! The CRC-16 generator and the checksum engine (41_crc_checksum.md R93, R99 to R102): the opcodes of the four
commands, and what each leaves in its accumulator. -/

namespace Sys2Proof

theorem decode_of_opcode_crcInit {w : Word} (h : opcode w = 0x10) : decode w = .ok (.crcInit (fieldH w)) := by
  simp [decode, h]

theorem decode_of_opcode_crcFeed {w : Word} (h : opcode w = 0x11) : decode w = .ok (.crcFeed (fieldB w)) := by
  simp [decode, h]

theorem decode_of_opcode_chkInit {w : Word} (h : opcode w = 0x12) : decode w = .ok (.chkInit (fieldB w)) := by
  simp [decode, h]

theorem decode_of_opcode_chkFeed {w : Word} (h : opcode w = 0x13) : decode w = .ok (.chkFeed (fieldB w)) := by
  simp [decode, h]

end Sys2Proof

namespace Sys2Proof.Machine

/-- CRC_INIT loads CRC_ACC and completes (R99). -/
theorem exec_crcInit (h : Half) (s : State) :
    exec (.crcInit h) s = .next { s with crcAcc := h, cmdStatus := .ok } := rfl

/-- CRC_FEED folds one byte into CRC_ACC and completes (R100). -/
theorem exec_crcFeed (b : Byte) (s : State) :
    exec (.crcFeed b) s = .next { s with crcAcc := crc16Byte s.crcAcc b, cmdStatus := .ok } := rfl

/-- CHK_INIT loads CHK_ACC and completes (R101). -/
theorem exec_chkInit (b : Byte) (s : State) :
    exec (.chkInit b) s = .next { s with chkAcc := b, cmdStatus := .ok } := rfl

/-- CHK_FEED adds one byte to CHK_ACC and completes (R102). -/
theorem exec_chkFeed (b : Byte) (s : State) :
    exec (.chkFeed b) s = .next { s with chkAcc := s.chkAcc + b, cmdStatus := .ok } := rfl

/-- R93: a byte is folded in by an XOR and eight shifts. -/
theorem crc16Byte_eq_shifts (c : Half) (b : Byte) :
    crc16Byte c b = crcShift (crcShift (crcShift (crcShift (crcShift (crcShift (crcShift (crcShift
      (c ^^^ b.setWidth 16)))))))) := rfl

/-- Addition of bytes is addition modulo 256. -/
theorem byte_add_eq_ofNat_mod (a b : Byte) : a + b = BitVec.ofNat 8 ((a.toNat + b.toNat) % 256) :=
  BitVec.eq_of_toNat_eq (by simp)

/-- Settles O7: opcode 0x10 selects CRC_INIT, whose only writes are CRC_ACC and CMD_STATUS. -/
theorem crcInitLoadsAccumulator : Obligations.CrcInitLoadsAccumulator :=
  ⟨fun _ => decode_of_opcode_crcInit, exec_crcInit⟩

/-- Settles O8: CRC_FEED is `crc16Byte`, and that is the eight shifts of R93, each of them `crcShift`. -/
theorem crcFeedFoldsOneByte : Obligations.CrcFeedFoldsOneByte := by
  refine ⟨fun _ => decode_of_opcode_crcFeed, fun b s => ?_⟩
  rw [exec_crcFeed, crc16Byte_eq_shifts]
  rfl

/-- Settles O9: opcode 0x12 selects CHK_INIT, whose only writes are CHK_ACC and CMD_STATUS. -/
theorem chkInitLoadsAccumulator : Obligations.ChkInitLoadsAccumulator :=
  ⟨fun _ => decode_of_opcode_chkInit, exec_chkInit⟩

/-- Settles O10: CHK_FEED is one addition of bytes, which is addition modulo 256. -/
theorem chkFeedAddsOneByte : Obligations.ChkFeedAddsOneByte := by
  refine ⟨fun _ => decode_of_opcode_chkFeed, fun b s => ?_⟩
  rw [exec_chkFeed, byte_add_eq_ofNat_mod]

end Sys2Proof.Machine
end

section
/-! The frame encoder and the message serialisation (42_frame_codec.md R106, R107, R112): the physical frame is written
whole or not at all, and a subcommand goes out high byte first. -/

namespace Sys2Proof.Machine

theorem fillBuffer_of_lt {ft : Byte} {d : List Byte} {c : Bool} {limit : Nat} (h : limit < bufferSize ft d c) :
    fillBuffer ft d c limit = (0, []) :=
  if_pos h

theorem fillBuffer_of_le {ft : Byte} {d : List Byte} {c : Bool} {limit : Nat} (h : bufferSize ft d c ≤ limit) :
    fillBuffer ft d c limit = (bufferSize ft d c, physical (logicalFrame ft d c)) := by
  rw [fillBuffer, if_neg (Nat.not_lt.mpr h), bufferSize_eq]

/-- Settles O14: the physical frame has `bufferSize` bytes, and it is written when that many fit. -/
theorem fillBufferNeedsExactRoom : Obligations.FillBufferNeedsExactRoom := by
  intro ft d c limit
  refine ⟨rfl, fillBuffer_of_lt, fun hroom => ?_⟩
  rw [fillBuffer_of_le hroom]
  exact ⟨rfl, (bufferSize_eq ft d c).symm, rfl⟩

theorem half_highByte_eq_ofNat_div (h : Half) : h.extractLsb' 8 8 = BitVec.ofNat 8 (h.toNat / 256) := by
  simp [BitVec.extractLsb', Nat.shiftRight_eq_div_pow]

theorem half_lowByte_eq_ofNat_mod (h : Half) : h.extractLsb' 0 8 = BitVec.ofNat 8 (h.toNat % 256) :=
  BitVec.eq_of_toNat_eq (by simp)

theorem serialize_zero (payload : List Byte) : serialize 0 payload = payload := rfl

theorem serialize_of_ne_zero {subcmd : Half} (h : subcmd ≠ 0) (payload : List Byte) :
    serialize subcmd payload = subcmd.extractLsb' 8 8 :: subcmd.extractLsb' 0 8 :: payload := by
  rw [serialize, if_pos h]
  rfl

/-- Settles O17: the two bytes of a nonzero subcommand are its quotient and remainder by 256. -/
theorem serializePutsSubcommandFirst : Obligations.SerializePutsSubcommandFirst := by
  intro sub d
  constructor
  · rintro rfl
    exact serialize_zero d
  · intro hsub
    rw [serialize_of_ne_zero hsub, half_highByte_eq_ofNat_div, half_lowByte_eq_ofNat_mod]

end Sys2Proof.Machine
end

section
/-! The search for a frame start (43_frame_scanner.md R117): the positions of RB are tried from the front, and the
search stops at the first that is a start or from which only separators remain. -/

namespace Sys2Proof.Machine

/-- A start stands at `j`: two separators and a byte that is none. -/
def IsStart (rb : List Byte) (j : Nat) : Prop :=
  j + 2 < rb.length ∧ rb[j]? = some sep ∧ rb[j + 1]? = some sep ∧ rb[j + 2]? ≠ some sep

/-- From `j` on at most two bytes remain, all separators: they may yet begin a start. -/
def IsOpenTail (rb : List Byte) (j : Nat) : Prop := rb.length ≤ j + 2 ∧ ∀ b ∈ rb.drop j, b = sep

theorem isStart_cons_succ (b : Byte) (rest : List Byte) (j : Nat) : IsStart (b :: rest) (j + 1) ↔ IsStart rest j := by
  simp [IsStart, Nat.add_right_comm j 1 2, Nat.add_right_comm j 1 1]

theorem isOpenTail_cons_succ (b : Byte) (rest : List Byte) (j : Nat) :
    IsOpenTail (b :: rest) (j + 1) ↔ IsOpenTail rest j := by
  simp [IsOpenTail, Nat.add_right_comm j 1 2]

/-- A start, by its three bytes from `j` on. -/
theorem isStart_iff_byteAt (rb : List Byte) (j : Nat) : IsStart rb j ↔
    j + 2 < rb.length ∧ byteAt (rb.drop j) 0 = sep ∧ byteAt (rb.drop j) 1 = sep ∧ byteAt (rb.drop j) 2 ≠ sep := by
  refine and_congr_right fun h => ?_
  have h0 : j < rb.length := by omega
  have h1 : j + 1 < rb.length := by omega
  simp [byteAt, h, h0, h1]

theorem isStart_cons_zero (b : Byte) (rest : List Byte) : IsStart (b :: rest) 0 ↔
    2 ≤ rest.length ∧ b = sep ∧ byteAt rest 0 = sep ∧ byteAt rest 1 ≠ sep := by
  rw [isStart_iff_byteAt]
  simp [byteAt]

theorem isOpenTail_cons_zero (b : Byte) (rest : List Byte) :
    IsOpenTail (b :: rest) 0 ↔ ¬ 2 ≤ rest.length ∧ (b :: rest).all (· == sep) = true := by
  simp [IsOpenTail]

/-- The search stops at a byte with which a start begins. -/
theorem syncSearch_cons_of_isStart {b : Byte} {rest : List Byte} (h : IsStart (b :: rest) 0) :
    syncSearch (b :: rest) = (0, true) := by
  obtain ⟨hlen, hbytes⟩ := (isStart_cons_zero b rest).mp h
  simp [syncSearch, hlen, hbytes]

/-- The search stops at a byte from which only separators remain, too few for a start. -/
theorem syncSearch_cons_of_isOpenTail {b : Byte} {rest : List Byte} (h : IsOpenTail (b :: rest) 0) :
    syncSearch (b :: rest) = (0, false) := by
  obtain ⟨hlen, hall⟩ := (isOpenTail_cons_zero b rest).mp h
  rw [syncSearch, if_neg hlen, if_pos hall]

/-- The search passes over every other byte. -/
theorem syncSearch_cons_of_not {b : Byte} {rest : List Byte} (hstart : ¬ IsStart (b :: rest) 0)
    (htail : ¬ IsOpenTail (b :: rest) 0) :
    syncSearch (b :: rest) = ((syncSearch rest).1 + 1, (syncSearch rest).2) := by
  rw [isStart_cons_zero] at hstart
  rw [isOpenTail_cons_zero] at htail
  rw [syncSearch]
  by_cases hlen : 2 ≤ rest.length
  · rw [if_pos hlen, if_neg fun hbytes => hstart ⟨hlen, hbytes⟩]
  · rw [if_neg hlen, if_neg fun hall => htail ⟨hlen, hall⟩]

/-- What the search passes over is neither a start nor a tail worth keeping. -/
theorem syncSearch_passes (rb : List Byte) {j : Nat} (h : j < (syncSearch rb).1) :
    ¬ IsStart rb j ∧ ¬ IsOpenTail rb j := by
  induction rb generalizing j with
  | nil => exact absurd h (Nat.not_lt_zero j)
  | cons b rest ih =>
    by_cases hstart : IsStart (b :: rest) 0
    · rw [syncSearch_cons_of_isStart hstart] at h
      exact absurd h (Nat.not_lt_zero j)
    by_cases htail : IsOpenTail (b :: rest) 0
    · rw [syncSearch_cons_of_isOpenTail htail] at h
      exact absurd h (Nat.not_lt_zero j)
    rw [syncSearch_cons_of_not hstart htail] at h
    cases j with
    | zero => exact ⟨hstart, htail⟩
    | succ k =>
      rw [isStart_cons_succ, isOpenTail_cons_succ]
      exact ih (Nat.lt_of_succ_lt_succ h)

/-- Where the search locks, a start stands. -/
theorem syncSearch_isStart {rb : List Byte} (h : (syncSearch rb).2 = true) : IsStart rb (syncSearch rb).1 :=
  (isStart_iff_byteAt _ _).mpr ⟨syncSearch_locked rb h, syncSearch_start rb h⟩

/-- A search that does not lock stops where only separators remain, or at the end of RB. -/
theorem syncSearch_isOpenTail (rb : List Byte) (h : (syncSearch rb).2 = false) : IsOpenTail rb (syncSearch rb).1 := by
  induction rb with
  | nil => simp [IsOpenTail]
  | cons b rest ih =>
    by_cases hstart : IsStart (b :: rest) 0
    · rw [syncSearch_cons_of_isStart hstart] at h
      cases h
    by_cases htail : IsOpenTail (b :: rest) 0
    · rwa [syncSearch_cons_of_isOpenTail htail]
    rw [syncSearch_cons_of_not hstart htail] at h ⊢
    rw [isOpenTail_cons_succ]
    exact ih h

/-- A start needs three bytes, an open tail has fewer. -/
theorem IsOpenTail.not_isStart {rb : List Byte} {i j : Nat} (htail : IsOpenTail rb i) (hij : i ≤ j) :
    ¬ IsStart rb j := by
  intro hstart
  have hroom : j + 2 < rb.length := hstart.1
  have hshort : rb.length ≤ i + 2 := htail.1
  omega

/-- Settles O25: the search passes over no start and no open tail, and it stops at one of them. -/
theorem syncSearchFindsFirstStart : Obligations.SyncSearchFindsFirstStart := by
  intro rb i locked hfound
  have passes : ∀ j, j < i → ¬ IsStart rb j ∧ ¬ IsOpenTail rb j := by
    intro j hj
    exact syncSearch_passes rb (by rwa [hfound])
  constructor
  · rintro rfl
    have hstart : IsStart rb i := by simpa [hfound] using @syncSearch_isStart rb
    exact ⟨hstart, fun j hj => (passes j hj).1⟩
  · rintro rfl
    have htail : IsOpenTail rb i := by simpa [hfound] using syncSearch_isOpenTail rb
    have hwithin : i ≤ rb.length := by
      have hkept := syncSearch_tail rb (by rw [hfound])
      rw [hfound] at hkept
      exact hkept.1
    have hnone : ∀ j, ¬ IsStart rb j := fun j =>
      (Nat.lt_or_ge j i).elim (fun hj => (passes j hj).1) htail.not_isStart
    exact ⟨hnone, hwithin, htail, fun j hj => (passes j hj).2⟩

end Sys2Proof.Machine
end

section
/-! The scanner's tests and answers (43_frame_scanner.md R116, R120): when an open attempt is stale, and which logical
byte comes next by the one or two unconsumed bytes at the front. -/

namespace Sys2Proof.Machine

theorem rbPeek_of_getElem? {k : Nat} {s : State} {x : Byte} (h : s.rb[k]? = some x) : rbPeek k s = .ok x := by
  simp [rbPeek, h]

/-- With RB consumed to its end the scanner needs more. -/
theorem nextLogical_of_end {s : State} (h : s.rb[s.scn.consumed]? = none) : nextLogical s = .ok .needMore :=
  if_pos (List.getElem?_eq_none_iff.mp h)

/-- A byte that is no separator stands for itself. -/
theorem nextLogical_of_plain {s : State} {b : Byte} (h : s.rb[s.scn.consumed]? = some b) (hb : b ≠ sep) :
    nextLogical s = .ok (.byte b false) := by
  obtain ⟨hlt, -⟩ := List.getElem?_eq_some_iff.mp h
  simp [nextLogical, rbSize, Nat.not_le.mpr hlt, rbPeek_of_getElem? h, hb]

/-- A separator at the end of RB waits for its post-byte. -/
theorem nextLogical_of_open {s : State} (h : s.rb[s.scn.consumed]? = some sep)
    (hnext : s.rb[s.scn.consumed + 1]? = none) : nextLogical s = .ok .needMore := by
  obtain ⟨hlt, -⟩ := List.getElem?_eq_some_iff.mp h
  simp [nextLogical, rbSize, Nat.not_le.mpr hlt, rbPeek_of_getElem? h, List.getElem?_eq_none_iff.mp hnext]

/-- A separator with its post-byte is an escaped separator, with any other byte a violation. -/
theorem nextLogical_of_pair {s : State} {x : Byte} (h : s.rb[s.scn.consumed]? = some sep)
    (hnext : s.rb[s.scn.consumed + 1]? = some x) :
    nextLogical s = .ok (if x = post then .byte sep true else .violation) := by
  obtain ⟨hlt, -⟩ := List.getElem?_eq_some_iff.mp h
  obtain ⟨hlt', -⟩ := List.getElem?_eq_some_iff.mp hnext
  simp only [nextLogical, rbSize, Nat.not_le.mpr hlt, Nat.not_le.mpr hlt', rbPeek_of_getElem? h,
    rbPeek_of_getElem? hnext, if_false, ne_eq, not_true]
  split <;> rfl

/-- Settles O27: RB ends before a logical byte, or its first byte is plain, a separator still open, or one with its
successor. -/
theorem nextLogicalUnstuffs : Obligations.NextLogicalUnstuffs := by
  intro s
  cases hfirst : s.rb[s.scn.consumed]? with
  | none => exact nextLogical_of_end hfirst
  | some b =>
    by_cases hb : b = sep
    · subst hb
      cases hnext : s.rb[s.scn.consumed + 1]? with
      | none => exact nextLogical_of_open hfirst hnext
      | some x => exact nextLogical_of_pair hfirst hnext
    · rw [nextLogical_of_plain hfirst hb]
      exact congrArg Except.ok (if_pos hb).symm

theorem hasPassed_iff (now t0 : Word) (d : Nat) : hasPassed now t0 d = true ↔ d < (now - t0).toNat :=
  decide_eq_true_iff

theorem staleCheck_of_stale {now : Word} {s : State} (hopen : s.scn.phase ≠ .sync)
    (hlate : s.params.frameTimeoutMs < (now - s.scn.start).toNat) : staleCheck now s = abort .frameTimeout s :=
  if_pos ⟨hopen, (hasPassed_iff _ _ _).mpr hlate⟩

theorem staleCheck_of_fresh {now : Word} {s : State}
    (h : s.scn.phase = .sync ∨ (now - s.scn.start).toNat ≤ s.params.frameTimeoutMs) : staleCheck now s = s := by
  refine if_neg ?_
  rintro ⟨hopen, hpassed⟩
  have hlate := (hasPassed_iff _ _ _).mp hpassed
  exact h.elim hopen (Nat.not_le.mpr hlate)

/-- Settles O28: a stale attempt is aborted, and an abort is the update that R124 writes. -/
theorem staleAttemptDropped : Obligations.StaleAttemptDropped := by
  intro now s
  refine ⟨fun ⟨hopen, hlate⟩ => ?_, staleCheck_of_fresh⟩
  rw [staleCheck_of_stale hopen hlate, abort_eq, warnFrameErr]

end Sys2Proof.Machine
end

section
/-! The loop of the scanner (43_frame_scanner.md R115): each pass that goes on lowers `scanMeasure`, so the bound of
`scanLoop` is never met and the scan is one pass and the scan again. -/

namespace Sys2Proof.Machine

theorem scanLoop_of_done {now : Word} {s t : State} (h : scanPass now s = .ok (.done t)) (n : Nat) :
    scanLoop now (n + 1) s = .ok t := by
  simp [scanLoop, h]

theorem scanLoop_of_again {now : Word} {s t : State} (h : scanPass now s = .ok (.again t)) (n : Nat) :
    scanLoop now (n + 1) s = scanLoop now n t := by
  simp [scanLoop, h]

theorem scanMeasure_lt_scanFuel (s : State) : scanMeasure s < scanFuel s := by
  unfold scanMeasure scanFuel
  split <;> omega

/-- Fuel above the measure suffices: more of it changes nothing. -/
theorem scanLoop_eq_of_measure_lt (now : Word) {n m : Nat} {s : State} (hn : scanMeasure s < n)
    (hm : scanMeasure s < m) : scanLoop now n s = scanLoop now m s := by
  induction n generalizing m s with
  | zero => exact absurd hn (Nat.not_lt_zero _)
  | succ n ih =>
    obtain ⟨m, rfl⟩ := Nat.exists_eq_add_one_of_ne_zero (Nat.ne_zero_of_lt hm)
    obtain ⟨t, hdone | hagain, -⟩ := scanPass_frame now s
    · rw [scanLoop_of_done hdone, scanLoop_of_done hdone]
    · have hless : scanMeasure t < scanMeasure s := scanPass_measure now s t hagain
      rw [scanLoop_of_again hagain, scanLoop_of_again hagain]
      exact ih (by omega) (by omega)

theorem scan_of_done {now : Word} {s t : State} (h : scanPass now s = .ok (.done t)) : scan now s = .ok t :=
  scanLoop_of_done h _

/-- A pass that goes on hands over to the scan of its state. -/
theorem scan_of_again {now : Word} {s t : State} (h : scanPass now s = .ok (.again t)) : scan now s = scan now t := by
  have hless : scanMeasure t < scanMeasure s := scanPass_measure now s t h
  have hfuel : scanMeasure s < scanFuel s := scanMeasure_lt_scanFuel s
  calc scan now s
    _ = scanLoop now (2 * s.rb.length + 2) t := scanLoop_of_again h _
    _ = scan now t := scanLoop_eq_of_measure_lt now (by unfold scanFuel at hfuel; omega) (scanMeasure_lt_scanFuel t)

/-- The scan in SYNC: the garbage goes, and a start that was found is locked. -/
theorem scan_sync {now : Word} {s : State} (h : s.scn.phase = .sync) :
    scan now s = if (syncSearch s.rb).2 then scan now (lock now (dropGarbage (syncSearch s.rb).1 s))
      else .ok (dropGarbage (syncSearch s.rb).1 s) := by
  by_cases hlocked : (syncSearch s.rb).2 = true
  · rw [if_pos hlocked]
    exact scan_of_again (by simp [scanPass, h, hlocked])
  · rw [if_neg hlocked]
    exact scan_of_done (by simp [scanPass, h, hlocked])

/-- One pass over an open attempt is the same in its header and in its body. -/
theorem scanPass_open {now : Word} {s : State} (h : s.scn.phase ≠ .sync) {r : Logical} (hr : nextLogical s = .ok r) :
    scanPass now s = .ok (match r with
      | .needMore => .done s
      | .violation => .again (abort .wrongPostByte s)
      | .byte b e => .again (accept now b e s)) := by
  cases hphase : s.scn.phase with
  | sync => exact absurd hphase h
  | header | body => cases r <;> simp [scanPass, hphase, hr]

theorem dropGarbage_eq_ite (k : Nat) (s : State) :
    dropGarbage k s = if 0 < k then { s with
        rb := s.rb.drop k
        stat := { s.stat with garbage := s.stat.garbage + BitVec.ofNat 32 k }
        warn := s.warn ||| warnGarbage }
      else s := by
  split
  case isTrue h => exact dropGarbage_eq k s h
  case isFalse h => exact if_neg h

end Sys2Proof.Machine
end

section
/-! Accepting a logical byte (43_frame_scanner.md R121 to R123): it ends the header, or the body, or neither, and what
ends a part is parsed and recorded. -/

namespace Sys2Proof.Machine

theorem finishPart_of_header {now : Word} {s : State} (h : s.scn.phase = .header ∧ s.scn.asm.length = 10) :
    finishPart now s = headerDone s :=
  if_pos h

theorem finishPart_of_body {now : Word} {s : State} (hheader : ¬ (s.scn.phase = .header ∧ s.scn.asm.length = 10))
    (h : s.scn.phase = .body ∧ s.scn.asm.length = 10 + s.scn.dataLen.toNat + trailerLen s.scn.useCrc) :
    finishPart now s = bodyDone now s := by
  rw [finishPart, if_neg hheader, if_pos h]

theorem finishPart_of_inside {now : Word} {s : State} (hheader : ¬ (s.scn.phase = .header ∧ s.scn.asm.length = 10))
    (hbody : ¬ (s.scn.phase = .body ∧ s.scn.asm.length = 10 + s.scn.dataLen.toNat + trailerLen s.scn.useCrc)) :
    finishPart now s = s := by
  rw [finishPart, if_neg hheader, if_neg hbody]

theorem headerDone_of_error {s : State} {e : FrameError} (h : parseHeader s.params s.scn.asm .empty = .error e) :
    headerDone s = abort e s := by
  simp [headerDone, h]

theorem headerDone_of_ok {s : State} {hd : Header} (h : parseHeader s.params s.scn.asm .empty = .ok hd) :
    headerDone s = { s with
      scn := { s.scn with phase := .body, ftype := hd.ftype, useCrc := hd.useCrc, dataLen := hd.dataLen } } := by
  simp [headerDone, h]

theorem bodyDone_of_error {now : Word} {s : State} {e : FrameError}
    (h : parseBody s.scn.asm { ftype := s.scn.ftype, useCrc := s.scn.useCrc, dataLen := s.scn.dataLen } s.scn.esc
      .headerOnly = .error e) : bodyDone now s = abort e s := by
  simp [bodyDone, h]

/-- R86 in one update, whether FIFO is full or not. -/
theorem fifoPush_eq (f : RxFrame) (s : State) :
    fifoPush f s = { s with
      fifo := (if s.fifo.length = s.params.fifoCap then s.fifo.drop 1 else s.fifo) ++ [f]
      stat := { s.stat with
        fifoDrops := if s.fifo.length = s.params.fifoCap then s.stat.fifoDrops + 1 else s.stat.fifoDrops }
      warn := if s.fifo.length = s.params.fifoCap then s.warn ||| warnFifoOverflow else s.warn } := by
  by_cases hfull : s.fifo.length = s.params.fifoCap
  · simp only [fifoPush_full hfull, if_pos hfull]
  · simp only [fifoPush_room hfull, if_neg hfull]

/-- A verified body leaves RB, becomes the newest frame of FIFO and ends the attempt (R123). -/
theorem bodyDone_of_ok {now : Word} {s : State} {f : Frame}
    (h : parseBody s.scn.asm { ftype := s.scn.ftype, useCrc := s.scn.useCrc, dataLen := s.scn.dataLen } s.scn.esc
      .headerOnly = .ok f) :
    bodyDone now s = resetSync (addRxFrame (fifoPush
      { ftype := f.ftype, useCrc := f.useCrc, data := f.data, arrival := now }
      { s with rb := s.rb.drop s.scn.consumed })) := by
  simp [bodyDone, h, rbDrop_eq]

/-- Settles O26: the scan is one pass and the scan again, and each operation of a pass is the update of its rule. -/
theorem scanIsTheLoop : Obligations.ScanIsTheLoop := by
  unfold Obligations.ScanIsTheLoop
  refine ⟨fun _ _ => rfl, ?loop, fun _ _ => rfl, abort_eq, ?accept⟩
  case loop =>
    intro now s
    cases hphase : s.scn.phase with
    | sync =>
      rw [scan_sync hphase, dropGarbage_eq_ite]
      rfl
    | header | body =>
      have hopen : s.scn.phase ≠ .sync := by simp [hphase]
      obtain ⟨r, hr⟩ := nextLogical_total s
      rw [hr]
      cases r with
      | needMore => exact scan_of_done (scanPass_open hopen hr)
      | violation => exact scan_of_again (scanPass_open hopen hr)
      | byte b e => exact scan_of_again (scanPass_open hopen hr)
  case accept =>
    intro now b escaped s p c s1
    have haccept : accept now b escaped s = finishPart now s1 := rfl
    rw [haccept]
    by_cases hheader : c.phase = .header ∧ c.asm.length = 10
    · rw [if_pos hheader, finishPart_of_header hheader]
      cases hparse : parseHeader s.params c.asm .empty with
      | error e => exact (headerDone_of_error hparse).trans (abort_eq e s1)
      | ok hd => exact headerDone_of_ok hparse
    rw [if_neg hheader]
    by_cases hbody : c.phase = .body ∧ c.asm.length = 10 + c.dataLen.toNat + trailerLen c.useCrc
    · rw [finishPart_of_body hheader hbody]
      refine Eq.trans ?_ (if_pos hbody).symm
      cases hparse : parseBody c.asm { ftype := c.ftype, useCrc := c.useCrc, dataLen := c.dataLen } c.esc
          .headerOnly with
      | error e => exact (bodyDone_of_error hparse).trans (abort_eq e s1)
      | ok f =>
        rw [bodyDone_of_ok hparse, fifoPush_eq]
        rfl
    · rw [finishPart_of_inside hheader hbody]
      exact (if_neg hbody).symm

end Sys2Proof.Machine
end

section
/-! The staging commands (44_sequencer.md R137 to R140): their opcodes, and the one field of STG each of them writes. -/

namespace Sys2Proof

theorem decode_of_opcode_stageClear {w : Word} (h : opcode w = 0x20) : decode w = .ok .stageClear := by
  simp [decode, h]

theorem decode_of_opcode_stagePush {w : Word} (h : opcode w = 0x21) : decode w = .ok (.stagePush (fieldB w)) := by
  simp [decode, h]

theorem decode_of_opcode_stageSubcmd {w : Word} (h : opcode w = 0x22) : decode w = .ok (.stageSubcmd (fieldH w)) := by
  simp [decode, h]

theorem decode_of_opcode_stageRetry {w : Word} (h : opcode w = 0x23) : decode w = .ok (.stageRetry (fieldT w)) := by
  simp [decode, h]

end Sys2Proof

namespace Sys2Proof.Machine

theorem exec_stageClear (s : State) :
    exec .stageClear s = .next { s with stg := { data := [], subcmd := 0, retry := s.stg.retry }, cmdStatus := .ok } :=
  rfl

theorem exec_stagePush_full {s : State} (h : s.stg.data.length = maxDataSize s.params) (b : Byte) :
    exec (.stagePush b) s = .next (cmdFail .stageFull s) :=
  if_pos h

theorem exec_stagePush_room {s : State} (h : s.stg.data.length ≠ maxDataSize s.params) (b : Byte) :
    exec (.stagePush b) s = .next { s with stg := { s.stg with data := s.stg.data ++ [b] }, cmdStatus := .ok } :=
  if_neg h

theorem exec_stageSubcmd (h : Half) (s : State) :
    exec (.stageSubcmd h) s = .next { s with stg := { s.stg with subcmd := h }, cmdStatus := .ok } := rfl

theorem exec_stageRetry (t : U24) (s : State) :
    exec (.stageRetry t) s = .next { s with stg := { s.stg with retry := t }, cmdStatus := .ok } := rfl

/-- Settles O41: opcode 0x20 selects STAGE_CLEAR, which writes STG but for its interval. -/
theorem stageClearKeepsRetry : Obligations.StageClearKeepsRetry :=
  ⟨fun _ => decode_of_opcode_stageClear, exec_stageClear⟩

/-- Settles O42: the staged data are at MAX_DATA_SIZE bytes or not; the mask 0x40 of a failure is WARN[6]. -/
theorem stagePushAppends : Obligations.StagePushAppends :=
  ⟨fun _ => decode_of_opcode_stagePush,
    fun b _ => ⟨fun hfull => exec_stagePush_full hfull b, fun hroom => exec_stagePush_room hroom b⟩⟩

/-- Settles O43: opcode 0x22 selects STAGE_SUBCMD, which writes STG.subcmd. -/
theorem stageSubcmdSetsSubcommand : Obligations.StageSubcmdSetsSubcommand :=
  ⟨fun _ => decode_of_opcode_stageSubcmd, exec_stageSubcmd⟩

/-- Settles O44: opcode 0x23 selects STAGE_RETRY, which writes STG.retry. -/
theorem stageRetrySetsInterval : Obligations.StageRetrySetsInterval :=
  ⟨fun _ => decode_of_opcode_stageRetry, exec_stageRetry⟩

end Sys2Proof.Machine
end

section
/-! The transmit commands (44_sequencer.md R133 to R136): SEND_MESSAGE and SEND_MESSAGE_NA differ in the item they
queue, SEND_ANSWER transmits in the handler, and NO_ANSWER marks it. -/

namespace Sys2Proof

theorem CrcMode.ofCode_code (m : CrcMode) : CrcMode.ofCode m.code = m := by
  cases m <;> rfl

theorem decode_of_opcode_sendMessage {w : Word} (h : opcode w = 0x30) :
    decode w = .ok (.sendMessage (fieldB w) (fieldC w) (fieldR w)) := by
  simp [decode, h]

theorem decode_of_opcode_sendMessageNa {w : Word} (h : opcode w = 0x31) :
    decode w = .ok (.sendMessageNa (fieldB w) (fieldC w)) := by
  simp [decode, h]

/-- The mode is the one whose code stands in W[9:8] (R60). -/
theorem decode_of_opcode_sendAnswer {w : Word} {m : CrcMode} (h : opcode w = 0x32) (hm : fieldM w = m.code) :
    decode w = .ok (.sendAnswer (fieldB w) m) := by
  simp [decode, h, hm, CrcMode.ofCode_code]

theorem decode_of_opcode_noAnswer {w : Word} (h : opcode w = 0x33) : decode w = .ok .noAnswer := by
  simp [decode, h]

end Sys2Proof

namespace Sys2Proof.Machine

theorem exec_sendMessage (ft : Byte) (c : Bool) (r : Byte) (s : State) :
    exec (.sendMessage ft c r) s = .next (enqueueItem
      { ftype := ft, data := stagedData s, useCrc := c, expectsAnswer := true,
        retries := BitVec.ofNat 8 (min r.toNat s.params.maxRetries + 1), retryInterval := s.stg.retry } s) := rfl

theorem exec_sendMessageNa (ft : Byte) (c : Bool) (s : State) :
    exec (.sendMessageNa ft c) s = .next (enqueueItem
      { ftype := ft, data := stagedData s, useCrc := c, expectsAnswer := false, retries := 1, retryInterval := 0 } s) :=
  rfl

/-- R133, R134: a command that queues an item fails with OVERSIZE, then QUEUE_FULL, and else appends the item to OQ. -/
theorem exec_of_enqueueItem {i : Instr} {item : OutItem} {s : State} (h : exec i s = .next (enqueueItem item s)) :
    (item.data.length > maxDataSize s.params →
      exec i s = .next { s with cmdStatus := .oversize, warn := s.warn ||| 0x40 }) ∧
    (item.data.length ≤ maxDataSize s.params → s.oq.length = s.params.oqCap →
      exec i s = .next { s with cmdStatus := .queueFull, warn := s.warn ||| 0x40 }) ∧
    (item.data.length ≤ maxDataSize s.params → s.oq.length ≠ s.params.oqCap →
      exec i s = .next { s with oq := s.oq ++ [item], cmdStatus := .ok }) := by
  rw [h]
  refine ⟨fun hbig => ?oversize, fun hfits hfull => ?full, fun hfits hroom => ?room⟩
  case oversize => rw [enqueueItem_oversize hbig, cmdFail_eq, warnCmdErr]
  case full => rw [enqueueItem_full hfits hfull, cmdFail_eq, warnCmdErr]
  case room => rw [enqueueItem_room hfits hroom]

/-- Settles O37: SEND_MESSAGE queues the staged message as a request. -/
theorem sendMessageQueuesRequest : Obligations.SendMessageQueuesRequest :=
  ⟨fun _ => decode_of_opcode_sendMessage, fun ft c r s => exec_of_enqueueItem (exec_sendMessage ft c r s)⟩

/-- Settles O38: SEND_MESSAGE_NA queues the staged message as a notification. -/
theorem sendMessageNaQueuesNotification : Obligations.SendMessageNaQueuesNotification :=
  ⟨fun _ => decode_of_opcode_sendMessageNa, fun ft c s => exec_of_enqueueItem (exec_sendMessageNa ft c s)⟩

/-! ### SEND_ANSWER and NO_ANSWER: the handler's two commands -/

theorem exec_sendAnswer_outside {s : State} (h : s.eng.processing = false) (ft : Byte) (m : CrcMode) :
    exec (.sendAnswer ft m) s = .next (cmdFail .notInHandler s) :=
  if_pos h

theorem exec_sendAnswer_reserved {s : State} (h : s.eng.processing = true) (ft : Byte) :
    exec (.sendAnswer ft .reserved) s = .next (cmdFail .badOperand s) := by
  simp [exec, execSendAnswer, h]

theorem exec_sendAnswer_oversize {s : State} {m : CrcMode} (h : s.eng.processing = true) (hm : m ≠ .reserved)
    (hd : maxDataSize s.params < (stagedData s).length) (ft : Byte) :
    exec (.sendAnswer ft m) s = .next (cmdFail .oversize s) := by
  simp [exec, execSendAnswer, h, hm, hd]

/-- In the handler, with a defined mode and data that fit, the frame goes out and the cooldown starts (R135). -/
theorem exec_sendAnswer_fits {s : State} {m : CrcMode} (h : s.eng.processing = true) (hm : m ≠ .reserved)
    (hd : (stagedData s).length ≤ maxDataSize s.params) (ft : Byte) :
    exec (.sendAnswer ft m) s = .next { s with
      txLine := s.txLine ++ physical (logicalFrame ft (stagedData s) (answerCrc m s.eng.inUseCrc))
      stat := { s.stat with txFrames := s.stat.txFrames + 1 }
      eng := { s.eng with answerSent := true, lastSend := s.time, coolArmed := true }
      cmdStatus := .ok } := by
  simp [exec, execSendAnswer, h, hm, Nat.not_lt.mpr hd, sendData_fits hd, cmdOk]

/-- Settles O39: the three errors in their order, then the transmission under the CRC flag of the mode. -/
theorem sendAnswerTransmitsAtOnce : Obligations.SendAnswerTransmitsAtOnce := by
  refine ⟨fun w hop => ?decode, fun ft m s => ⟨fun hout => exec_sendAnswer_outside hout ft m, ?reserved,
    fun hin hm hbig => exec_sendAnswer_oversize hin hm hbig ft, fun hin hm hfits => ?fits⟩⟩
  case decode =>
    have hmode (m : CrcMode) : fieldM w = m.code → decode w = .ok (.sendAnswer (fieldB w) m) :=
      decode_of_opcode_sendAnswer hop
    exact ⟨hmode .inherit, hmode .off, hmode .on, hmode .reserved⟩
  case reserved =>
    rintro hin rfl
    exact exec_sendAnswer_reserved hin ft
  case fits =>
    rw [exec_sendAnswer_fits hin hm hfits]
    cases m <;> rfl

theorem exec_noAnswer_outside {s : State} (h : s.eng.processing = false) :
    exec .noAnswer s = .next (cmdFail .notInHandler s) :=
  if_pos h

theorem exec_noAnswer_inside {s : State} (h : s.eng.processing = true) :
    exec .noAnswer s = .next { s with eng := { s.eng with noAnswer := true }, cmdStatus := .ok } :=
  if_neg (by simp [h])

/-- Settles O40: NO_ANSWER stands inside the handler or outside it. -/
theorem noAnswerMarksHandler : Obligations.NoAnswerMarksHandler :=
  ⟨fun _ => decode_of_opcode_noAnswer, fun _ => ⟨exec_noAnswer_outside, exec_noAnswer_inside⟩⟩

end Sys2Proof.Machine
end

section
/-! The return from a callout (44_sequencer.md R132): the handler's result is recorded, the held callout is left in its
own way, and no callout is held. -/

namespace Sys2Proof

theorem HandlerResult.ofCode_code (res : HandlerResult) : HandlerResult.ofCode res.code = res := by
  cases res <;> rfl

/-- The result is the one whose code stands in W[2:0] (R60). -/
theorem decode_of_opcode_handlerReturn {w : Word} {res : HandlerResult} (h : opcode w = 0x34)
    (hres : fieldRes w = res.code) : decode w = .ok (.handlerReturn res) := by
  simp [decode, h, hres, HandlerResult.ofCode_code]

end Sys2Proof

namespace Sys2Proof.Machine

/-- The first two writes of R132: HRESULT, and the handler warning for a result that is not OK. -/
def recordResult (res : HandlerResult) (s : State) : State :=
  { s with hresult := res, warn := if res = .ok then s.warn else s.warn ||| warnHandlerErr }

theorem recordResult_eq_ite (res : HandlerResult) (s : State) :
    (if res = .ok then { s with hresult := res } else setWarn warnHandlerErr { s with hresult := res }) =
      recordResult res s := by
  unfold recordResult
  split <;> rfl

theorem calloutReturn_of_message {s : State} (h : s.eng.callout = .message) (res : HandlerResult) :
    calloutReturn res s =
      (let t := noAnswerCheck (recordResult res s)
       { t with eng := { t.eng with processing := false, callout := .none } }) := by
  have hc : (recordResult res s).eng.callout = .message := h
  simp only [calloutReturn, recordResult_eq_ite, hc]

theorem calloutReturn_of_answer {s : State} (h : s.eng.callout = .answer) (res : HandlerResult) :
    calloutReturn res s = { recordResult res s with
      oq := s.oq.drop 1, eng := { s.eng with state := .idle, callout := .none } } := by
  have hc : (recordResult res s).eng.callout = .answer := h
  simp only [calloutReturn, recordResult_eq_ite, hc]
  rfl

theorem calloutReturn_of_timeout {s : State} (h : s.eng.callout = .timeout) (res : HandlerResult) :
    calloutReturn res s = { recordResult res s with eng := { s.eng with state := .idle, callout := .none } } := by
  have hc : (recordResult res s).eng.callout = .timeout := h
  simp only [calloutReturn, recordResult_eq_ite, hc]
  rfl

/-- A handler that neither answered nor declined to is counted and flagged. -/
theorem noAnswerCheck_of_silent {s : State} (ha : s.eng.answerSent = false) (hn : s.eng.noAnswer = false) :
    noAnswerCheck s = { s with
      warn := s.warn ||| warnNoAnswer, stat := { s.stat with noAnswer := s.stat.noAnswer + 1 } } :=
  if_pos ⟨ha, hn⟩

theorem noAnswerCheck_of_settled {s : State} (h : s.eng.answerSent = true ∨ s.eng.noAnswer = true) :
    noAnswerCheck s = s :=
  if_neg (by rcases h with h | h <;> simp [h])

theorem exec_handlerReturn_outside {s : State} (h : s.eng.callout = .none) (res : HandlerResult) :
    exec (.handlerReturn res) s = .next (cmdFail .notInCallout s) :=
  if_pos h

theorem exec_handlerReturn_inside {s : State} (h : s.eng.callout ≠ .none) (res : HandlerResult) :
    exec (.handlerReturn res) s = .next (cmdOk (calloutReturn res s)) :=
  if_neg h

/-- Settles O36: each of the callouts is left as `calloutReturn` says, the MESSAGE callout with or without an answer. -/
theorem handlerReturnLeavesCallout : Obligations.HandlerReturnLeavesCallout := by
  refine ⟨fun w hop => ?decode, fun res s => ⟨fun hout => exec_handlerReturn_outside hout res,
    fun hc ha hn => ?silent, fun hc hsettled => ?settled, fun hc => ?answer, fun hc => ?timeout⟩⟩
  case decode =>
    have hcode (res : HandlerResult) : fieldRes w = res.code → decode w = .ok (.handlerReturn res) :=
      decode_of_opcode_handlerReturn hop
    exact ⟨hcode .ok, hcode .unsupportedMessage, hcode .unexpectedMessage, hcode .unsupportedSubcommand,
      hcode .wrongMessageStructure, hcode .invalidAnswer, hcode .runtimeError, hcode .unknownError⟩
  case silent =>
    rw [exec_handlerReturn_inside (by simp [hc]), calloutReturn_of_message hc,
      noAnswerCheck_of_silent (s := recordResult res s) ha hn]
    rfl
  case settled =>
    rw [exec_handlerReturn_inside (by simp [hc]), calloutReturn_of_message hc,
      noAnswerCheck_of_settled (s := recordResult res s) hsettled]
    rfl
  case answer =>
    rw [exec_handlerReturn_inside (by simp [hc]), calloutReturn_of_answer hc]
    rfl
  case timeout =>
    rw [exec_handlerReturn_inside (by simp [hc]), calloutReturn_of_timeout hc]
    rfl

end Sys2Proof.Machine
end

section
/-! Sending the head of OQ (44_sequencer.md R130): the transmission, and then the wait of a request or the removal of a
notification. -/

namespace Sys2Proof.Machine

/-- R108 in one expression: a frame is written unless its data are too long. -/
theorem sendData_snd (ft : Byte) (d : List Byte) (c : Bool) (s : State) :
    (sendData ft d c s).2 = if maxDataSize s.params < d.length then s else { s with
      txLine := s.txLine ++ physical (logicalFrame ft d c)
      stat := { s.stat with txFrames := s.stat.txFrames + 1 } } := by
  split
  case isTrue hbig => rw [sendData_oversize hbig]
  case isFalse hfits => rw [sendData_fits (Nat.not_lt.mp hfits)]

@[simp] theorem sendData_snd_oq (ft : Byte) (d : List Byte) (c : Bool) (s : State) :
    (sendData ft d c s).2.oq = s.oq := by
  rw [sendData_snd]
  split <;> rfl

@[simp] theorem sendData_snd_eng (ft : Byte) (d : List Byte) (c : Bool) (s : State) :
    (sendData ft d c s).2.eng = s.eng := by
  rw [sendData_snd]
  split <;> rfl

/-- A request stays at the head with one retry less, and the wait for its answer begins. -/
theorem sendHead_of_request {h : OutItem} {rest : List OutItem} {s : State} (now : Word) (hoq : s.oq = h :: rest)
    (hreq : h.expectsAnswer = true) :
    sendHead now h s = { (sendData h.ftype h.data h.useCrc s).2 with
      oq := { h with retries := h.retries - 1 } :: rest
      eng := { s.eng with lastSend := now, coolArmed := true, state := .waiting, ansBase := now, retryBase := now,
                          retryWait := h.retryInterval.setWidth 32 } } := by
  simp [sendHead, hreq, oqDecHead, hoq]

/-- A notification leaves OQ, and the next item need not wait for a retry interval. -/
theorem sendHead_of_notification {h : OutItem} {rest : List OutItem} {s : State} (now : Word)
    (hoq : s.oq = h :: rest) (hnote : h.expectsAnswer = false) :
    sendHead now h s = { (sendData h.ftype h.data h.useCrc s).2 with
      oq := rest
      eng := { s.eng with lastSend := now, coolArmed := true, retryBase := now, retryWait := 0 } } := by
  simp [sendHead, hnote, oqPop, hoq]

/-- Settles O34: `sent` of the statement is what `sendData` leaves, and the item is a request or a notification. -/
theorem sendHeadTransmits : Obligations.SendHeadTransmits := by
  intro now h rest s hoq
  have hsent := sendData_snd h.ftype h.data h.useCrc s
  constructor
  · intro hreq
    rw [sendHead_of_request now hoq hreq, hsent]
  · intro hnote
    rw [sendHead_of_notification now hoq hnote, hsent]

end Sys2Proof.Machine
end

section
/-! LOOP past its scan (44_sequencer.md R128, R129, R131): one state step, in IDLE by the frames queued and the two
deadlines, in WAITING by the answer timeout and the frames queued. -/

namespace Sys2Proof.Machine

/-- LOOP with no callout held is the line, the scan and one state step; the state step decides where it ends. -/
theorem exec_loop_of_engineStep {s s1 t : State} (hcallout : s.eng.callout = .none)
    (hscan : processData s.time (readData s) = .ok s1) (hstep : engineStep s.time s1 = .ok t) :
    exec .loop s = .next (cmdOk t) := by
  simp [exec, execLoop, hcallout, loopBody, hscan, hstep]

/-! ### The idle step -/

theorem engineStep_of_idle {s : State} (h : s.eng.state = .idle) (now : Word) :
    engineStep now s = .ok (idleStep now s) := by
  simp [engineStep, h]

/-- R129, overload: the newest frame stays, and the older ones are counted and, when there are any, flagged. -/
theorem shed_of_append {s : State} {older : List RxFrame} {f : RxFrame} (h : s.fifo = older ++ [f]) :
    shed s = { s with
      fifo := [f]
      stat := { s.stat with shed := s.stat.shed + BitVec.ofNat 32 older.length }
      warn := if older = [] then s.warn else s.warn ||| warnShed } := by
  cases older with
  | nil =>
    have hone : s.fifo = [f] := h
    rw [shed_few (by simp [hone]), ← hone]
    simp
  | cons a older =>
    rw [shed_many (k := older.length) (by simp [h]), h]
    simp

theorem idleStep_of_frame {s : State} {older : List RxFrame} {f : RxFrame} (now : Word) (h : s.fifo = older ++ [f]) :
    idleStep now s = dispatchMessage f { shed s with fifo := [] } := by
  rw [idleStep, fifoPop_cons (f := f) (rest := []) (by rw [shed_of_append h])]

theorem idleStep_of_quiet {s : State} (now : Word) (hfifo : s.fifo = []) (hoq : s.oq = []) : idleStep now s = s := by
  simp [idleStep, shed_few (s := s) (by simp [hfifo]), fifoPop_nil hfifo, hoq]

theorem idleStep_of_item {s : State} {h : OutItem} {rest : List OutItem} (now : Word) (hfifo : s.fifo = [])
    (hoq : s.oq = h :: rest) : idleStep now s = if maySend now s then sendHead now h s else s := by
  simp [idleStep, shed_few (s := s) (by simp [hfifo]), fifoPop_nil hfifo, hoq]

theorem hasElapsed_iff (now t0 : Word) (d : Nat) : hasElapsed now t0 d = true ↔ (now - t0).toNat ≥ d :=
  decide_eq_true_iff

theorem maySend_iff (now : Word) (s : State) :
    maySend now s = true ↔
      (s.eng.coolArmed = false ∨ (now - s.eng.lastSend).toNat ≥ s.params.cooldownMs) ∧
        (now - s.eng.retryBase).toNat ≥ s.eng.retryWait.toNat := by
  simp only [maySend, Bool.and_eq_true, Bool.or_eq_true, Bool.not_eq_true', hasElapsed_iff]

/-- Settles O33: the idle step by a frame queued, or by none and an item queued or none. -/
theorem idleLoopDispatchesOrSends : Obligations.IdleLoopDispatchesOrSends := by
  intro s s1 hcallout hscan hidle
  have hloop : exec .loop s = .next (cmdOk (idleStep s.time s1)) :=
    exec_loop_of_engineStep hcallout hscan (engineStep_of_idle hidle s.time)
  rw [hloop]
  refine ⟨fun older f hfifo _ => ?dispatch, fun hfifo hoq => ?quiet, fun h rest hfifo hoq => ?item⟩
  case dispatch =>
    rw [idleStep_of_frame s.time hfifo, shed_of_append hfifo]
    rfl
  case quiet =>
    rw [idleStep_of_quiet s.time hfifo hoq]
    rfl
  case item =>
    rw [idleStep_of_item s.time hfifo hoq]
    constructor
    · intro hready
      rw [if_pos ((maySend_iff _ _).mpr hready)]
    · intro hearly
      rw [if_neg (mt (maySend_iff _ _).mp hearly)]
      rfl

/-! ### The waiting step -/

theorem engineStep_of_waiting {s : State} (h : s.eng.state = .waiting) (now : Word) :
    engineStep now s = waitingStep now s := by
  simp [engineStep, h]

section
variable {now : Word} {s : State} {h : OutItem} {rest : List OutItem}

/-- A late request without a retry is given up: popped, counted and reported. -/
theorem waitingStep_of_late_last (hoq : s.oq = h :: rest)
    (hlate : (now - s.eng.ansBase).toNat > s.params.answerTimeoutMs) (hlast : h.retries = 0) :
    waitingStep now s = .ok (postCallout .timeout h.ftype 0 h.useCrc [] now (addTimeout { s with oq := rest })) := by
  simp [waitingStep, hoq, (hasPassed_iff _ _ _).mpr hlate, hlast, oqPop]

/-- A late request with a retry left goes back to IDLE. -/
theorem waitingStep_of_late_retry (hoq : s.oq = h :: rest)
    (hlate : (now - s.eng.ansBase).toNat > s.params.answerTimeoutMs) (hretry : h.retries ≠ 0) :
    waitingStep now s = .ok { s with eng := { s.eng with state := .idle } } := by
  simp only [waitingStep, hoq, (hasPassed_iff _ _ _).mpr hlate, if_true, if_neg hretry]

/-- In time, the oldest frame is the answer. -/
theorem waitingStep_of_answer {f : RxFrame} {later : List RxFrame} (hoq : s.oq = h :: rest)
    (hearly : ¬ (now - s.eng.ansBase).toNat > s.params.answerTimeoutMs) (hfifo : s.fifo = f :: later) :
    waitingStep now s =
      .ok (postCallout .answer h.ftype f.ftype f.useCrc f.data f.arrival { s with fifo := later }) := by
  simp [waitingStep, hoq, mt (hasPassed_iff _ _ _).mp hearly, fifoPop_cons hfifo]

theorem waitingStep_of_nothing (hoq : s.oq = h :: rest)
    (hearly : ¬ (now - s.eng.ansBase).toNat > s.params.answerTimeoutMs) (hfifo : s.fifo = []) :
    waitingStep now s = .ok s := by
  simp [waitingStep, hoq, mt (hasPassed_iff _ _ _).mp hearly, fifoPop_nil hfifo]

end

/-- Settles O35: the waiting step, late by the retries left and in time by the frames queued. -/
theorem waitingLoopTimesOutOrAnswers : Obligations.WaitingLoopTimesOutOrAnswers := by
  intro s s1 h rest hcallout hscan hwaiting hoq
  have hloop {t : State} (hstep : waitingStep s.time s1 = .ok t) : exec .loop s = .next (cmdOk t) :=
    exec_loop_of_engineStep hcallout hscan ((engineStep_of_waiting hwaiting s.time).trans hstep)
  exact ⟨fun hlate hlast => hloop (waitingStep_of_late_last hoq hlate hlast),
    fun hlate hretry => hloop (waitingStep_of_late_retry hoq hlate hretry),
    fun f later hearly hfifo _ => hloop (waitingStep_of_answer hoq hearly hfifo),
    fun hearly hfifo => hloop (waitingStep_of_nothing hoq hearly hfifo)⟩

end Sys2Proof.Machine
end

section
/-! NOP (45_system.md R146): it completes, and completing is all it does. -/

namespace Sys2Proof

theorem decode_of_opcode_nop {w : Word} (h : opcode w = 0x00) : decode w = .ok .nop := by
  simp [decode, h]

end Sys2Proof

namespace Sys2Proof.Machine

theorem exec_nop (s : State) : exec .nop s = .next { s with cmdStatus := .ok } := rfl

/-- Settles O47: opcode 0x00 selects NOP, whose only write is CMD_STATUS. -/
theorem nopClearsStatus : Obligations.NopClearsStatus :=
  ⟨fun _ => decode_of_opcode_nop, exec_nop⟩

end Sys2Proof.Machine
end

section
/-! A host write by the register it names (45_system.md R148): three registers take a value, every other offset takes
none. -/

namespace Sys2Proof.Machine

theorem memWrite_of_cmd {off : Nat} (h : regOffset off = 0x004) (v : Word) (s : State) :
    memWrite off v s = execute v s := by
  simp only [memWrite, h]

theorem memWrite_of_warn {off : Nat} (h : regOffset off = 0x010) (v : Word) (s : State) :
    memWrite off v s = .next { s with warn := s.warn &&& ~~~(v.extractLsb' 0 7) } := by
  simp only [memWrite, h]

theorem memWrite_of_ie {off : Nat} (h : regOffset off = 0x014) (v : Word) (s : State) :
    memWrite off v s = .next { s with ie := v.extractLsb' 0 2 } := by
  simp only [memWrite, h]

theorem memWrite_of_readOnly {off : Nat} (hcmd : regOffset off ≠ 0x004) (hwarn : regOffset off ≠ 0x010)
    (hie : regOffset off ≠ 0x014) (v : Word) (s : State) : memWrite off v s = .next s := by
  unfold memWrite
  split
  case h_1 h => exact absurd h hcmd
  case h_2 h => exact absurd h hwarn
  case h_3 h => exact absurd h hie
  case h_4 => rfl

/-- Settles O56: the register offset is that of CMD, of WARN, of IE, or of none of them. -/
theorem hostWriteEffects : Obligations.HostWriteEffects :=
  fun _ v s => ⟨fun h => memWrite_of_cmd h v s, fun h => memWrite_of_warn h v s, fun h => memWrite_of_ie h v s,
    fun hcmd hwarn hie => memWrite_of_readOnly hcmd hwarn hie v s⟩

end Sys2Proof.Machine
end

section
/-! Reading a register apart (10_state.md R41): a register is the union of its fields, and each bit of it belongs to one
of them or is 0. -/

namespace Sys2Proof.Machine

/-! ### A field in its place -/

theorem fieldAt_zero {n : Nat} (v : BitVec n) : fieldAt 0 v = v.setWidth 32 :=
  BitVec.shiftLeft_zero _

theorem getLsbD_fieldAt {n : Nat} (lo : Nat) (v : BitVec n) (k : Nat) :
    (fieldAt lo v).getLsbD k = (decide (lo ≤ k ∧ k < 32) && v.getLsbD (k - lo)) := by
  by_cases hlo : lo ≤ k <;> by_cases hk : k < 32 <;> simp [fieldAt, hlo, hk]

/-- A field read at its own place. -/
@[simp] theorem extractLsb'_fieldAt_self {n lo : Nat} (h : lo + n ≤ 32) (v : BitVec n) :
    (fieldAt lo v).extractLsb' lo n = v := by
  refine BitVec.eq_of_getLsbD_eq fun k hk => ?_
  have hplace : lo ≤ lo + k ∧ lo + k < 32 := by omega
  rw [BitVec.getLsbD_extractLsb', getLsbD_fieldAt]
  simp [hplace, hk]

/-- A field leaves every other place 0. -/
@[simp] theorem extractLsb'_fieldAt_of_disjoint {n lo i len : Nat} (h : lo + n ≤ i ∨ i + len ≤ lo) (v : BitVec n) :
    (fieldAt lo v).extractLsb' i len = 0 := by
  refine BitVec.eq_of_getLsbD_eq fun k hk => ?_
  rw [BitVec.getLsbD_extractLsb', getLsbD_fieldAt]
  rcases h with habove | hbelow
  · simp [BitVec.getLsbD_of_ge v (i + k - lo) (by omega)]
  · simp [show ¬ lo ≤ i + k by omega]

/-- A flag is a field of one bit. -/
theorem getLsbD_of_extractLsb'_eq_ofBool {n k : Nat} {x : BitVec n} {b : Bool}
    (h : x.extractLsb' k 1 = BitVec.ofBool b) : x.getLsbD k = b := by
  simpa using congrArg (BitVec.getLsbD · 0) h

/-- A count shown in a field that it fits into is read back. -/
theorem toNat_of_eq_ofNat {n k : Nat} {x : BitVec n} (h : x = BitVec.ofNat n k) (hk : k < 2 ^ n) : x.toNat = k := by
  rw [h, BitVec.toNat_ofNat, Nat.mod_eq_of_lt hk]

/-! ### The registers of several fields -/

theorem engStateBit_eq_ofBool (e : EngState) : engStateBit e = BitVec.ofBool (decide (e = .waiting)) := by
  cases e <;> rfl

/-- The interrupt line (60_exceptions.md R162): a callout held or a warning set, each with its enable bit. -/
theorem irq_eq_true_iff (s : State) :
    irq s = true ↔ (s.eng.callout ≠ .none ∧ s.ie.getLsbD 0 = true) ∨ (s.warn ≠ 0 ∧ s.ie.getLsbD 1 = true) := by
  simp only [irq, Bool.or_eq_true, Bool.and_eq_true, bne_iff_ne]

theorem regState_flags (s : State) :
    (regState s).getLsbD 0 = decide (s.eng.state = .waiting) ∧ (regState s).getLsbD 3 = s.eng.processing ∧
    (regState s).getLsbD 4 = s.eng.answerSent ∧ (regState s).getLsbD 5 = s.eng.noAnswer ∧
    (regState s).getLsbD 6 = s.eng.inUseCrc ∧ (regState s).getLsbD 7 = s.eng.coolArmed ∧
    (regState s).getLsbD 10 = irq s := by
  refine ⟨?_, ?_, ?_, ?_, ?_, ?_, ?_⟩ <;> apply getLsbD_of_extractLsb'_eq_ofBool <;>
    simp [regState, engStateBit_eq_ofBool, BitVec.extractLsb'_or]

theorem regState_waiting_iff (s : State) : (regState s).getLsbD 0 = true ↔ s.eng.state = .waiting := by
  obtain ⟨hwaiting, -⟩ := regState_flags s
  rw [hwaiting, decide_eq_true_iff]

theorem regState_irq_iff (s : State) :
    (regState s).getLsbD 10 = true ↔
      (s.eng.callout ≠ .none ∧ s.ie.getLsbD 0 = true) ∨ (s.warn ≠ 0 ∧ s.ie.getLsbD 1 = true) := by
  obtain ⟨-, -, -, -, -, -, hirq⟩ := regState_flags s
  rw [hirq, irq_eq_true_iff]

theorem regState_fields (s : State) :
    (regState s).extractLsb' 1 2 = calloutBits s.eng.callout ∧
    (regState s).extractLsb' 8 2 = phaseBits s.scn.phase ∧ (regState s).extractLsb' 11 21 = 0 := by
  simp [regState, BitVec.extractLsb'_or]

theorem regLevels_fields (s : State) :
    (regLevels s).extractLsb' 0 8 = BitVec.ofNat 8 s.fifo.length ∧
    (regLevels s).extractLsb' 8 8 = BitVec.ofNat 8 s.oq.length ∧
    (regLevels s).extractLsb' 16 16 = BitVec.ofNat 16 s.rb.length := by
  simp [regLevels, BitVec.extractLsb'_or]

theorem regScnInfo_fields (s : State) :
    (regScnInfo s).extractLsb' 0 16 = BitVec.ofNat 16 s.scn.consumed ∧
    (regScnInfo s).extractLsb' 16 9 = BitVec.ofNat 9 s.scn.asm.length ∧ (regScnInfo s).extractLsb' 25 7 = 0 := by
  simp [regScnInfo, BitVec.extractLsb'_or]

theorem regScnHdr_fields (s : State) :
    (regScnHdr s).extractLsb' 0 8 = s.scn.ftype ∧ (regScnHdr s).extractLsb' 8 8 = s.scn.dataLen ∧
    (regScnHdr s).getLsbD 16 = s.scn.useCrc ∧ (regScnHdr s).extractLsb' 17 7 = 0 ∧
    (regScnHdr s).extractLsb' 24 8 = s.scn.esc := by
  have huseCrc : (regScnHdr s).getLsbD 16 = s.scn.useCrc :=
    getLsbD_of_extractLsb'_eq_ofBool (by simp [regScnHdr, BitVec.extractLsb'_or])
  rw [huseCrc]
  simp [regScnHdr, BitVec.extractLsb'_or]

theorem regStageInfo_fields (s : State) :
    (regStageInfo s).extractLsb' 0 8 = BitVec.ofNat 8 s.stg.data.length ∧ (regStageInfo s).extractLsb' 8 8 = 0 ∧
    (regStageInfo s).extractLsb' 16 16 = s.stg.subcmd := by
  simp [regStageInfo, BitVec.extractLsb'_or]

theorem regOqHead_of_nil {s : State} (hoq : s.oq = []) : regOqHead s = 0 := by
  simp [regOqHead, hoq]

theorem regOqHead_fields {s : State} {h : OutItem} {rest : List OutItem} (hoq : s.oq = h :: rest) :
    (regOqHead s).extractLsb' 0 8 = h.ftype ∧ (regOqHead s).extractLsb' 8 8 = h.retries ∧
    (regOqHead s).getLsbD 16 = h.expectsAnswer ∧ (regOqHead s).getLsbD 17 = h.useCrc ∧
    (regOqHead s).extractLsb' 18 6 = 0 ∧ (regOqHead s).extractLsb' 24 8 = BitVec.ofNat 8 h.data.length := by
  have hexpects : (regOqHead s).getLsbD 16 = h.expectsAnswer :=
    getLsbD_of_extractLsb'_eq_ofBool (by simp [regOqHead, hoq, BitVec.extractLsb'_or])
  have huseCrc : (regOqHead s).getLsbD 17 = h.useCrc :=
    getLsbD_of_extractLsb'_eq_ofBool (by simp [regOqHead, hoq, BitVec.extractLsb'_or])
  rw [hexpects, huseCrc]
  simp [regOqHead, hoq, BitVec.extractLsb'_or]

/-- EVT_DATA_k holds four bytes of EVT.data, the first in its lowest byte (20_memory.md R46). -/
theorem regEvtData_byte {j : Nat} (hj : j < 4) (k : Nat) (s : State) :
    (regEvtData k s).extractLsb' (8 * j) 8 = byteAt s.evt.data (4 * k + j) := by
  interval_cases j <;> simp [regEvtData, BitVec.extractLsb'_or]

end Sys2Proof.Machine
end

section
/-! The register map (10_state.md R41, 45_system.md R147): the register at each offset of the window. -/

namespace Sys2Proof.Machine

theorem regOffset_regOffset (off : Nat) : regOffset (regOffset off) = regOffset off := by
  unfold regOffset
  omega

theorem regOffset_of_aligned {off : Nat} (hwindow : off < 4096) (haligned : off % 4 = 0) : regOffset off = off := by
  unfold regOffset
  omega

/-- Outside the offsets with a register of their own the map has the blocks of STAT and of EVT_DATA, and 0. -/
theorem readReg_of_block {a : Nat} (h : (0x058 ≤ a ∧ a < 0x080) ∨ 0x098 ≤ a) (s : State) :
    readReg a s =
      if 0x060 ≤ a ∧ a < 0x080 ∧ a % 4 = 0 then statAt s.stat ((a - 0x060) / 4)
      else if 0x100 ≤ a ∧ a < 0x200 ∧ a % 4 = 0 then regEvtData ((a - 0x100) / 4) s
      else 0 := by
  unfold readReg
  split
  case h_29 => rfl
  -- The offsets with a register of their own lie outside.
  all_goals exact absurd h (by decide)

theorem memRead_evtData {k : Nat} (hk : k < 64) (s : State) : memRead (0x100 + 4 * k) s = regEvtData k s := by
  have hindex : (0x100 + 4 * k - 0x100) / 4 = k := by omega
  rw [memRead, regOffset_of_aligned (by omega) (by omega), readReg_of_block (by omega), if_neg (by omega),
    if_pos (by omega), hindex]

theorem memRead_of_unlisted {off : Nat} (hwindow : off < 4096) (haligned : off % 4 = 0)
    (h : (0x058 ≤ off ∧ off < 0x060) ∨ (0x098 ≤ off ∧ off < 0x100) ∨ 0x200 ≤ off) (s : State) :
    memRead off s = 0 := by
  rw [memRead, regOffset_of_aligned hwindow haligned, readReg_of_block (by omega), if_neg (by omega),
    if_neg (by omega)]

/-- A read sees its offset only through the aligned offset in the window (20_memory.md R48). -/
theorem memRead_regOffset (off : Nat) (s : State) : memRead off s = memRead (regOffset off) s :=
  memRead_eq_of_regOffset_eq (regOffset_regOffset off).symm s

/-- Settles O54: a register of one field is that field, and each register of several is read field by field. -/
theorem registerMapReadsState : Obligations.RegisterMapReadsState := by
  refine ⟨memRead_regOffset, fun s => ?_⟩
  obtain ⟨-, hprocessing, hanswered, hnoAnswer, hinUseCrc, hcool, -⟩ := regState_flags s
  obtain ⟨hcallout, hphase, hstateRest⟩ := regState_fields s
  obtain ⟨hfifo, hoq, hrb⟩ := regLevels_fields s
  obtain ⟨hconsumed, hasm, hinfoRest⟩ := regScnInfo_fields s
  obtain ⟨hstaged, hstageRest, hsubcmd⟩ := regStageInfo_fields s
  refine ⟨
    -- 0x000 to 0x00C
    rfl, rfl, ?cmdStatus, ⟨regState_waiting_iff s, hcallout, hprocessing, hanswered, hnoAnswer, hinUseCrc, hcool,
      hphase, regState_irq_iff s, hstateRest⟩,
    -- 0x010 to 0x024
    fieldAt_zero _, fieldAt_zero _, rfl, fieldAt_zero _, fieldAt_zero _, ?frameErr,
    -- 0x028 to 0x034
    toNat_of_eq_ofNat hfifo, toNat_of_eq_ofNat hoq, toNat_of_eq_ofNat hrb, toNat_of_eq_ofNat hconsumed,
    toNat_of_eq_ofNat hasm, hinfoRest, regScnHdr_fields s, rfl,
    -- 0x038 to 0x044
    toNat_of_eq_ofNat hstaged, hstageRest, hsubcmd, fieldAt_zero _, ?hresult, regOqHead_of_nil, ?oqHead,
    -- 0x048 to 0x054
    rfl, rfl, rfl, rfl,
    -- STAT
    rfl, rfl, rfl, rfl, rfl, rfl, rfl, rfl,
    -- EVT and EVT_DATA
    fieldAt_zero (calloutBits s.evt.kind), fieldAt_zero _, fieldAt_zero _, fieldAt_zero _, fieldAt_zero _, rfl,
    ?evtData,
    fun off hwindow haligned hunlisted => memRead_of_unlisted hwindow haligned hunlisted s⟩
  case cmdStatus => cases hcode : s.cmdStatus <;> exact congrArg (fieldAt 0 <| cmdCodeBits ·) hcode
  case frameErr => cases hcode : s.frameErr <;> exact congrArg (fieldAt 0 <| frameErrorBits ·) hcode
  case hresult => cases hcode : s.hresult <;> exact congrArg (fieldAt 0 <| HandlerResult.code ·) hcode
  case oqHead =>
    intro h rest hhead
    obtain ⟨hftype, hretries, hexpects, huseCrc, hrest, hlen⟩ := regOqHead_fields hhead
    exact ⟨hftype, hretries, hexpects, huseCrc, hrest, toNat_of_eq_ofNat hlen⟩
  case evtData =>
    intro k j hk hj
    rw [memRead_evtData hk]
    exact regEvtData_byte hj k s

end Sys2Proof.Machine
end

section
/-! The assembler and the decoder (30_encoding.md section 1) undo each other: every operand stands whole in its field,
and the fields of a format are exactly the bits that its command uses. -/

namespace Sys2Proof

theorem decode_of_opcode_reset {w : Word} (h : opcode w = 0x01) : decode w = .ok .reset := by
  simp [decode, h]

theorem decode_of_opcode_loop {w : Word} (h : opcode w = 0x02) : decode w = .ok .loop := by
  simp [decode, h]

/-! ### From the command to its word and back -/

/-- An operand read at its own place. -/
@[simp] theorem extractLsb'_operandAt_self {n lo : Nat} (h : lo + n ≤ 24) (v : BitVec n) :
    (operandAt lo v).extractLsb' lo n = v := by
  refine BitVec.eq_of_getLsbD_eq fun k hk => ?_
  rw [BitVec.getLsbD_extractLsb', operandAt_bit v (by omega)]
  simp [hk]

/-- An operand leaves every other place 0. -/
@[simp] theorem extractLsb'_operandAt_of_disjoint {n lo lo' len : Nat} (h : lo + n ≤ lo' ∨ lo' + len ≤ lo)
    (hword : lo' + len ≤ 24) (v : BitVec n) : (operandAt lo v).extractLsb' lo' len = 0 := by
  refine BitVec.eq_of_getLsbD_eq fun k hk => ?_
  rw [BitVec.getLsbD_extractLsb', operandAt_bit v (by omega)]
  rcases h with habove | hbelow
  · simp [BitVec.getLsbD_of_ge v (lo' + k - lo) (by omega)]
  · simp [show lo' + k < lo by omega]

/-- The operands of a word made by `encode` are read from the operand bits of its command. -/
theorem fields_encode (i : Instr) :
    fieldB (encode i) = i.operandBits.extractLsb' 0 8 ∧ fieldH (encode i) = i.operandBits.extractLsb' 0 16 ∧
    fieldT (encode i) = i.operandBits.extractLsb' 0 24 ∧ fieldR (encode i) = i.operandBits.extractLsb' 16 8 ∧
    fieldM (encode i) = i.operandBits.extractLsb' 8 2 ∧ fieldRes (encode i) = i.operandBits.extractLsb' 0 3 ∧
    fieldC (encode i) = i.operandBits.getLsbD 8 :=
  ⟨encode_field i (by decide), encode_field i (by decide), encode_field i (by decide), encode_field i (by decide),
    encode_field i (by decide), encode_field i (by decide), encode_bit i (by decide)⟩

/-- R59, R74: the opcode of the assembled word selects the command, and its fields give the operands back. -/
theorem decode_encode (i : Instr) : decode (encode i) = .ok i := by
  have hop : opcode (encode i) = i.opcode := opcode_encode i
  obtain ⟨hB, hH, hT, hR, hM, hRes, hC⟩ := fields_encode i
  cases i with
  | nop => exact decode_of_opcode_nop hop
  | reset => exact decode_of_opcode_reset hop
  | loop => exact decode_of_opcode_loop hop
  | crcInit h => rw [decode_of_opcode_crcInit hop, hH]; simp [Instr.operandBits]
  | crcFeed b => rw [decode_of_opcode_crcFeed hop, hB]; simp [Instr.operandBits]
  | chkInit b => rw [decode_of_opcode_chkInit hop, hB]; simp [Instr.operandBits]
  | chkFeed b => rw [decode_of_opcode_chkFeed hop, hB]; simp [Instr.operandBits]
  | stageClear => exact decode_of_opcode_stageClear hop
  | stagePush b => rw [decode_of_opcode_stagePush hop, hB]; simp [Instr.operandBits]
  | stageSubcmd h => rw [decode_of_opcode_stageSubcmd hop, hH]; simp [Instr.operandBits]
  | stageRetry t => rw [decode_of_opcode_stageRetry hop, hT]; simp [Instr.operandBits]
  | sendMessage ft c r =>
    rw [decode_of_opcode_sendMessage hop, hB, hR, hC,
      Machine.getLsbD_of_extractLsb'_eq_ofBool (b := c) (by simp [Instr.operandBits, BitVec.extractLsb'_or])]
    simp [Instr.operandBits, BitVec.extractLsb'_or]
  | sendMessageNa ft c =>
    rw [decode_of_opcode_sendMessageNa hop, hB, hC,
      Machine.getLsbD_of_extractLsb'_eq_ofBool (b := c) (by simp [Instr.operandBits, BitVec.extractLsb'_or])]
    simp [Instr.operandBits, BitVec.extractLsb'_or]
  | sendAnswer ft m =>
    rw [decode_of_opcode_sendAnswer (m := m) hop (by rw [hM]; simp [Instr.operandBits, BitVec.extractLsb'_or]), hB]
    simp [Instr.operandBits, BitVec.extractLsb'_or]
  | noAnswer => exact decode_of_opcode_noAnswer hop
  | handlerReturn res =>
    exact decode_of_opcode_handlerReturn hop (by rw [hRes]; simp [Instr.operandBits])

/-- Settles O1: each command by its opcode and its fields. -/
theorem decodeOfEncode : Obligations.DecodeOfEncode := decode_encode

/-! ### From a word to its command and back -/

/-- An operand read from a word and put back is the word's bits of that field. -/
theorem operandAt_extractLsb' (w : Word) (lo n : Nat) :
    operandAt lo (w.extractLsb' lo n) = w.setWidth 24 &&& operandAt lo (BitVec.allOnes n) := by
  refine BitVec.eq_of_getLsbD_eq fun k hk => ?_
  rw [BitVec.getLsbD_and, operandAt_bit _ hk, operandAt_bit _ hk]
  by_cases hlo : k < lo
  · simp [hlo]
  · by_cases hin : k - lo < n
    · simp [hlo, hin, hk, show lo + (k - lo) = k by omega]
    · simp [hin]

theorem operandAt_fieldC (w : Word) :
    operandAt 8 (BitVec.ofBool (fieldC w)) = w.setWidth 24 &&& operandAt 8 (BitVec.allOnes 1) := by
  have hbit : BitVec.ofBool (fieldC w) = w.extractLsb' 8 1 := by
    refine BitVec.eq_of_getLsbD_eq fun k hk => ?_
    obtain rfl : k = 0 := by omega
    simp [fieldC]
  rw [hbit, operandAt_extractLsb']

theorem CrcMode.code_ofCode (m : BitVec 2) : (CrcMode.ofCode m).code = m := by
  revert m; decide

theorem HandlerResult.code_ofCode (c : BitVec 3) : (HandlerResult.ofCode c).code = c := by
  revert c; decide

/-- Two fields of one word together are the word under the union of their masks. -/
theorem fields_or {a b v m n : BitVec 24} (ha : a = v &&& m) (hb : b = v &&& n) : a ||| b = v &&& (m ||| n) := by
  rw [ha, hb]
  ext k hk
  simp [Bool.and_or_distrib_left]

/-- With the operand bits of a command those of a word under a mask, the assembled word is that word under the mask of
the opcode and the operands. -/
theorem encode_eq_of_operandBits {w : Word} {i : Instr} {m : BitVec 24} (hop : opcode w = i.opcode)
    (hbits : i.operandBits = w.setWidth 24 &&& m) (hused : usedBits (opcode w) = 0xFF000000 ||| m.setWidth 32) :
    encode i = w &&& usedBits (opcode w) := by
  rw [hused, encode, hbits, ← hop]
  ext k hk
  have hmask : (0xFF000000#32)[k] = decide (24 ≤ k) := by
    revert k; decide
  by_cases hlo : k < 24
  · simp [hlo, hk, hmask, Nat.not_le.mpr hlo]
  · simp [opcode, hlo, hk, hmask, Nat.not_lt.mp hlo, show 24 + (k - 24) = k by omega, show k - 24 < 8 by omega]

/-- Settles O2: each operand put back is the word under the mask of its field, and the union of those masks is the bits
that the format uses. -/
theorem encodeOfDecode : Obligations.EncodeOfDecode := by
  intro w i hdecode
  have hB : operandAt 0 (fieldB w) = w.setWidth 24 &&& operandAt 0 (BitVec.allOnes 8) := operandAt_extractLsb' w _ _
  have hC := operandAt_fieldC w
  have hR : operandAt 16 (fieldR w) = w.setWidth 24 &&& operandAt 16 (BitVec.allOnes 8) := operandAt_extractLsb' w _ _
  unfold decode at hdecode
  split at hdecode <;> cases hdecode
  case h_1 hop | h_2 hop | h_3 hop | h_8 hop | h_15 hop =>
    exact encode_eq_of_operandBits (m := 0) hop (BitVec.and_zero).symm (by rw [hop]; rfl)
  case h_4 hop | h_10 hop =>
    exact encode_eq_of_operandBits hop (operandAt_extractLsb' w 0 16) (by rw [hop]; rfl)
  case h_5 hop | h_6 hop | h_7 hop | h_9 hop => exact encode_eq_of_operandBits hop hB (by rw [hop]; rfl)
  case h_11 hop => exact encode_eq_of_operandBits hop (operandAt_extractLsb' w 0 24) (by rw [hop]; rfl)
  case h_12 hop => exact encode_eq_of_operandBits hop (fields_or (fields_or hR hC) hB) (by rw [hop]; rfl)
  case h_13 hop => exact encode_eq_of_operandBits hop (fields_or hC hB) (by rw [hop]; rfl)
  case h_14 hop =>
    have hM : operandAt 8 (CrcMode.ofCode (fieldM w)).code = w.setWidth 24 &&& operandAt 8 (BitVec.allOnes 2) := by
      rw [CrcMode.code_ofCode]
      exact operandAt_extractLsb' w _ _
    exact encode_eq_of_operandBits hop (fields_or hM hB) (by rw [hop]; rfl)
  case h_16 hop =>
    have hRes : operandAt 0 (HandlerResult.ofCode (fieldRes w)).code =
        w.setWidth 24 &&& operandAt 0 (BitVec.allOnes 3) := by
      rw [HandlerResult.code_ofCode]
      exact operandAt_extractLsb' w _ _
    exact encode_eq_of_operandBits hop hRes (by rw [hop]; rfl)

/-- Settles O5: the words of R76, each by its opcode and its fields. -/
theorem specWordsDecode : Obligations.SpecWordsDecode :=
  ⟨rfl, rfl, rfl, rfl, rfl, rfl, rfl, rfl, rfl, rfl⟩

end Sys2Proof
end

section
/-! One step of the machine by the agent about to move (20_memory.md R52, 45_system.md), instantiation (00_scope.md R7)
and RESET (70_reset_and_hazards.md R170). -/

namespace Sys2Proof.Machine

theorem step_of_pending {s : State} {e : AgentStep} {rest : List AgentStep} (h : s.pending = e :: rest) :
    step s = perform e { s with pending := rest } := by
  simp only [step, h]

theorem step_of_idle {s : State} (h : s.pending = []) : step s = .next s := by
  simp only [step, h]

theorem execute_of_decode_ok {w : Word} {i : Instr} (h : decode w = .ok i) (s : State) : execute w s = exec i s := by
  simp only [execute, h]

/-- Settles O6: the write goes to CMD, and the word is executed as what it decodes to. -/
theorem stepRunsDecodedCommand : Obligations.StepRunsDecodedCommand := by
  intro s addr w rest i hpending hcmd hdecode
  rw [step_of_pending hpending]
  exact (memWrite_of_cmd hcmd w _).trans (execute_of_decode_ok hdecode _)

/-- R74: the agent step that stands for a command runs that command. -/
theorem step_cmd {s : State} {i : Instr} {rest : List AgentStep} (h : s.pending = cmd s.params i :: rest) :
    step s = exec i { s with pending := rest } := by
  have hoffset : s.params.windowBase + 4 - s.params.windowBase = 4 := by
    rw [BitVec.add_comm, BitVec.add_sub_cancel]
  exact stepRunsDecodedCommand s _ _ rest i h (by rw [hoffset]; rfl) (decode_encode i)

/-- Settles O57: each agent's step is one update of the state. -/
theorem environmentSteps : Obligations.EnvironmentSteps := by
  intro s rest
  refine ⟨fun addr h => step_of_pending h, fun x h => step_of_pending h, fun h => ?tick, step_of_idle⟩
  case tick =>
    have htime : s.time + 1 = BitVec.ofNat 32 ((s.time.toNat + 1) % 2 ^ 32) := BitVec.eq_of_toNat_eq (by simp)
    rw [← htime]
    exact step_of_pending h

theorem instantiate_of_legal {p : Params} (h : p.Legal) : instantiate p = .next (State.powerOn p) := if_pos h

theorem instantiate_of_illegal {p : Params} (h : ¬ p.Legal) : instantiate p = .refused .illegalParams := if_neg h

/-- The types of the OPEN parameters are exactly their legal ranges, and the defaults are legal (R6, R7). -/
theorem config_params_legal : Config.params.Legal := by
  have hanswer : Config.answerTimeoutMs.toNat < 2 ^ 31 := Config.answerTimeoutMs.isLt
  have hcooldown : Config.cooldownMs.toNat < 2 ^ 31 := Config.cooldownMs.isLt
  have hretries : Config.maxRetries.val < 255 := Config.maxRetries.isLt
  simp only [Params.Legal, Config.params]
  omega

/-- Settles O49: the check is R7's list, and the power-on state is written out in `State.powerOn`. -/
theorem instantiationChecksParameters : Obligations.InstantiationChecksParameters :=
  ⟨fun _ => ⟨Iff.rfl, instantiate_of_legal, instantiate_of_illegal, rfl, rfl, rfl⟩, rfl,
    instantiate_of_legal config_params_legal, rfl⟩

/-- Settles O48: opcode 0x01 selects RESET, which is the power-on state with the clock and the lines kept. -/
theorem resetRestoresEveryElement : Obligations.ResetRestoresEveryElement :=
  ⟨fun _ => decode_of_opcode_reset, fun _ => rfl⟩

end Sys2Proof.Machine
end

section
/-! Runs of commands (30_encoding.md R74, R75), and the two blocks that feed the CRC and the checksum byte by byte
(41_crc_checksum.md R96). -/

namespace Sys2Proof.Machine

/-- A command that completes hands its state to the rest of the run. -/
theorem run_of_cmd {n : Nat} {s t : State} {i : Instr} {rest : List AgentStep}
    (hpending : s.pending = cmd s.params i :: rest) (hexec : exec i { s with pending := rest } = .next t) :
    core.run (n + 1) s = core.run n t := by
  have hstep : core.step s = .next t := (step_cmd hpending).trans hexec
  simp only [Host.Core.run, hstep]

/-- Feeding bytes one by one is `crc16` from what CRC_ACC held. -/
theorem run_crcFeeds (bs : List Byte) {rest : List AgentStep} {s : State}
    (h : s.pending = (bs.map .crcFeed).map (cmd s.params) ++ rest) (hok : s.cmdStatus = .ok) :
    core.run bs.length s = .next { s with crcAcc := crc16 bs s.crcAcc, pending := rest } := by
  induction bs generalizing s with
  | nil =>
    obtain rfl : s.pending = rest := h
    rfl
  | cons b bs ih =>
    rw [List.length_cons, run_of_cmd h (exec_crcFeed b _), ih rfl rfl, ← hok]
    rfl

/-- Feeding bytes one by one is `checksum` from what CHK_ACC held. -/
theorem run_chkFeeds (bs : List Byte) {rest : List AgentStep} {s : State}
    (h : s.pending = (bs.map .chkFeed).map (cmd s.params) ++ rest) (hok : s.cmdStatus = .ok) :
    core.run bs.length s = .next { s with chkAcc := checksum bs s.chkAcc, pending := rest } := by
  induction bs generalizing s with
  | nil =>
    obtain rfl : s.pending = rest := h
    rfl
  | cons b bs ih =>
    rw [List.length_cons, run_of_cmd h (exec_chkFeed b _), ih rfl rfl, ← hok]
    rfl

/-- Settles O11: the first command of a block loads the accumulator, the others feed it. -/
theorem blocksComputeCrcAndChecksum : Obligations.BlocksComputeCrcAndChecksum := by
  intro h b bs rest s
  constructor
  · intro hpending
    rw [run_of_cmd hpending (exec_crcInit h _), run_crcFeeds bs rfl rfl]
  · intro hpending
    rw [run_of_cmd hpending (exec_chkInit b _), run_chkFeeds bs rfl rfl, checksum_eq_ofNat_sum]

/-! ### The table form of the CRC -/

/-- The CRC shift is linear over XOR. -/
theorem crcShift_xor (x y : Half) : crcShift (x ^^^ y) = crcShift x ^^^ crcShift y := by
  unfold crcShift
  rw [BitVec.getLsbD_xor, BitVec.ushiftRight_xor_distrib]
  generalize x >>> 1 = p, y >>> 1 = q
  cases x.getLsbD 0 <;> cases y.getLsbD 0 <;> ext k hk <;> cases hp : p[k] <;> cases hq : q[k] <;> simp [hp, hq]

theorem crcShift_iterate_xor (n : Nat) (x y : Half) :
    crcShift^[n] (x ^^^ y) = crcShift^[n] x ^^^ crcShift^[n] y := by
  induction n generalizing x y with
  | zero => rfl
  | succ n ih => rw [Function.iterate_succ_apply, crcShift_xor, ih]; rfl

/-- While the low bits are 0 the CRC shift is a plain one. -/
theorem crcShift_iterate_of_low_zero {n : Nat} {x : Half} (h : ∀ k < n, x.getLsbD k = false) :
    crcShift^[n] x = x >>> n := by
  induction n generalizing x with
  | zero => simp
  | succ n ih =>
    have hshift : crcShift x = x >>> 1 := if_neg (Bool.eq_false_iff.mp (h 0 n.succ_pos))
    have hlow : ∀ k < n, (x >>> 1).getLsbD k = false := by
      intro k hk
      rw [BitVec.getLsbD_ushiftRight, Nat.add_comm]
      exact h (k + 1) (Nat.succ_lt_succ hk)
    rw [Function.iterate_succ_apply, hshift, ih hlow, ← BitVec.shiftRight_add, Nat.add_comm]

/-- The high byte of an accumulator, in its place. -/
def highPart (x : Half) : Half := x &&& 0xFF00

theorem getLsbD_highPart (x : Half) (k : Nat) : (highPart x).getLsbD k = (decide (8 ≤ k) && x.getLsbD k) := by
  by_cases hk : k < 16
  · have hmask : (0xFF00#16).getLsbD k = decide (8 ≤ k) := by
      revert k; decide
    rw [highPart, BitVec.getLsbD_and, Bool.and_comm]
    exact congrArg (· && _) hmask
  · simp [BitVec.getLsbD_of_ge _ k (Nat.not_lt.mp hk)]

theorem eq_highPart_xor_low (x : Half) : x = highPart x ^^^ (x.setWidth 8).setWidth 16 := by
  refine BitVec.eq_of_getLsbD_eq fun k hk => ?_
  rw [BitVec.getLsbD_xor, getLsbD_highPart]
  by_cases h : k < 8
  · simp [h, hk, Nat.not_le.mpr h]
  · simp [hk, Nat.not_lt.mp h]

/-- A byte lies below the high byte of the accumulator. -/
theorem highPart_xor_byte_shift (c : Half) (b : Byte) : highPart (c ^^^ b.setWidth 16) >>> 8 = c >>> 8 := by
  refine BitVec.eq_of_getLsbD_eq fun k _ => ?_
  rw [BitVec.getLsbD_ushiftRight, BitVec.getLsbD_ushiftRight, getLsbD_highPart]
  simp

/-- R94: by linearity the eight shifts move the high byte down and turn the low byte into its table entry. -/
theorem crc16Byte_eq_table (c : Half) (b : Byte) : crc16Byte c b = crc16ByteTable c b := by
  have hlow : ∀ k < 8, (highPart (c ^^^ b.setWidth 16)).getLsbD k = false := by
    intro k hk
    simp [getLsbD_highPart, Nat.not_le.mpr hk]
  calc crc16Byte c b
    _ = crcShift^[8] (highPart (c ^^^ b.setWidth 16) ^^^ ((c ^^^ b.setWidth 16).setWidth 8).setWidth 16) := by
      rw [← eq_highPart_xor_low]; rfl
    _ = highPart (c ^^^ b.setWidth 16) >>> 8 ^^^ crcShift^[8] (((c ^^^ b.setWidth 16).setWidth 8).setWidth 16) := by
      rw [crcShift_iterate_xor, crcShift_iterate_of_low_zero hlow]
    _ = crc16ByteTable c b := by
      rw [highPart_xor_byte_shift, crc16ByteTable, crcTable, crc16Byte]
      exact congrArg (_ ^^^ crcShift^[8] ·) BitVec.zero_xor.symm

/-- Settles O12: the general identity, and six entries by evaluation. -/
theorem crcTableFormAgrees : Obligations.CrcTableFormAgrees :=
  ⟨crc16Byte_eq_table, by decide⟩

end Sys2Proof.Machine
end

section
/-! The two-stage parser (42_frame_codec.md R109, R110) and the physical frame (30_encoding.md R69, R71). -/

namespace Sys2Proof.Machine

/-! ### The parser's tests over numbers -/

theorem byteAt_eq_iff {a : List Byte} {k : Nat} (h : k < a.length) (b : Byte) : byteAt a k = b ↔ a[k]? = some b := by
  simp [byteAt, h]

/-- The data length of a header is its size byte less 8. -/
theorem byte_sub_eight {x : Byte} (h : 8 ≤ x.toNat) : x - 8 = BitVec.ofNat 8 (x.toNat - 8) := by
  bv_omega

/-- Two bytes as a 16-bit number, the first the high one (20_memory.md R45). -/
theorem half_eq_append_iff (c : Half) (hi lo : Byte) : c = hi ++ lo ↔ c.toNat = hi.toNat * 256 + lo.toNat := by
  have hnum : (hi ++ lo).toNat = hi.toNat * 256 + lo.toNat := by
    rw [BitVec.toNat_append, ← Nat.shiftLeft_add_eq_or_of_lt lo.isLt, Nat.shiftLeft_eq]
  rw [← hnum]
  exact BitVec.toNat_inj.symm

/-- The covered sum with its escapes, as the number that R110 compares. -/
theorem toNat_checksum_add_escapes (v : List Byte) (esc : Byte) :
    (checksum v 0 + post * esc).toNat = ((v.map BitVec.toNat).sum + 0x55 * esc.toNat) % 256 := by
  simp [checksum_eq_ofNat_sum, post]

/-- Settles O18: the tests of R109 one by one; the separators are compared inside the attempt. -/
theorem headerVerdicts : Obligations.HeaderVerdicts := by
  intro p a st
  refine ite_congr rfl (fun _ => rfl) fun _ => ite_congr rfl (fun _ => rfl) fun hlen => ?_
  have hseparators : (byteAt a 0 ≠ sep ∨ byteAt a 1 ≠ sep) ↔ (a[0]? ≠ some 0xFF ∨ a[1]? ≠ some 0xFF) :=
    or_congr (not_congr (byteAt_eq_iff (by omega) _)) (not_congr (byteAt_eq_iff (by omega) _))
  refine ite_congr (propext hseparators) (fun _ => rfl) fun _ => ite_congr rfl (fun _ => rfl) fun hsize =>
    ite_congr rfl (fun _ => rfl) fun _ => ?_
  have hdata : byteAt a 2 - 8 = BitVec.ofNat 8 ((byteAt a 2).toNat - 8) := byte_sub_eight (Nat.not_lt.mp hsize)
  rw [hdata]
  rfl

/-- Settles O19: the tests of R110 one by one; the CRC and the checksum are compared as numbers. -/
theorem bodyVerdicts : Obligations.BodyVerdicts := by
  intro a h esc st n v
  refine ite_congr rfl (fun _ => rfl) fun _ => ite_congr rfl (fun _ => rfl) fun _ => ?_
  refine ite_congr (propext (and_congr Iff.rfl (not_congr (half_eq_append_iff _ _ _)))) (fun _ => rfl) fun _ => ?_
  refine ite_congr (propext (not_congr ?sum)) (fun _ => rfl) fun _ => rfl
  rw [← toNat_checksum_add_escapes]
  exact BitVec.toNat_inj.symm

/-! ### What the parser answers for an attempt of the scanner -/

theorem getElem?_of_take_eq {a : List Byte} (h : a.take 2 = [sep, sep]) : a[0]? = some sep ∧ a[1]? = some sep := by
  have h0 := congrArg (·[0]?) h
  have h1 := congrArg (·[1]?) h
  simp only [List.getElem?_take] at h0 h1
  exact ⟨by simpa using h0, by simpa using h1⟩

/-- Of an attempt that begins with the two separators the header parser finds nothing wrong but its size byte. -/
theorem parseHeader_error_fromLine {p : Params} {a : List Byte} {e : FrameError} (hsep : a.take 2 = [sep, sep])
    (hlen : 10 ≤ a.length) (h : parseHeader p a .empty = .error e) : e.fromLine = true := by
  obtain ⟨h0, h1⟩ := getElem?_of_take_eq hsep
  have hseparators : ¬ (a[0]? ≠ some 0xFF ∨ a[1]? ≠ some 0xFF) := by
    rintro (hne | hne)
    · exact hne h0
    · exact hne h1
  rw [headerVerdicts, if_neg (by simp), if_neg (Nat.not_lt.mpr hlen), if_neg hseparators] at h
  split at h
  · cases h; rfl
  · split at h <;> cases h
    rfl

/-- Of a complete attempt the body parser finds nothing wrong but its CRC or its checksum. -/
theorem parseBody_error_fromLine {a : List Byte} {hdr : Header} {esc : Byte} {e : FrameError}
    (hlen : 10 + hdr.dataLen.toNat + trailerLen hdr.useCrc ≤ a.length)
    (h : parseBody a hdr esc .headerOnly = .error e) : e.fromLine = true := by
  have hlen' : ¬ a.length < 10 + hdr.dataLen.toNat + (if hdr.useCrc then 3 else 1) := Nat.not_lt.mpr hlen
  rw [bodyVerdicts, if_neg (by simp), if_neg hlen'] at h
  split at h
  · cases h; rfl
  · split at h <;> cases h
    rfl

/-- A verified body is the frame of its header with the data cut out of the attempt. -/
theorem eq_of_parseBody_ok {a : List Byte} {hdr : Header} {esc : Byte} {st : FrameStatus} {f : Frame}
    (h : parseBody a hdr esc st = .ok f) :
    f = { ftype := hdr.ftype, useCrc := hdr.useCrc, data := (a.take (10 + hdr.dataLen.toNat)).drop 10,
          status := .complete } := by
  unfold parseBody at h
  dsimp only at h
  split at h
  · cases h
  split at h
  · cases h
  split at h
  · cases h
  split at h <;> cases h
  rfl

/-! ### The physical frame -/

/-- In stuffed bytes every separator is followed by the post-byte. -/
theorem post_follows_sep_of_stuffed (m : List Byte) {k : Nat} (h : (m.flatMap stuff)[k]? = some sep) :
    (m.flatMap stuff)[k + 1]? = some post := by
  induction m generalizing k with
  | nil => cases h
  | cons b m ih =>
    rw [List.flatMap_cons] at h ⊢
    by_cases hb : b = sep
    · rw [show stuff b = [sep, post] by simp [stuff, hb]] at h ⊢
      match k with
      | 0 => rfl
      | 1 => exact absurd (Option.some.inj h) (by decide)
      | k + 2 => exact ih h
    · rw [show stuff b = [b] by simp [stuff, hb]] at h ⊢
      match k with
      | 0 => exact absurd (Option.some.inj h) hb
      | k + 1 => exact ih h

/-- A frame of legal length stays within PHYS_MAX even when every byte after the separators is escaped (R71). -/
theorem physical_logicalFrame_length_le {p : Params} (hp : p.Legal) {d : List Byte} (hd : d.length ≤ maxDataSize p)
    (ft : Byte) (c : Bool) : (physical (logicalFrame ft d c)).length ≤ physMax p := by
  obtain ⟨hmin, -⟩ := hp
  have hlen := logicalFrame_length ft d c
  have htrailer : trailerLen c ≤ 3 := by cases c <;> decide
  have hescapes : ((logicalFrame ft d c).drop 2).count sep ≤ (logicalFrame ft d c).length - 2 :=
    List.count_le_length.trans (List.length_drop ▸ Nat.le_refl _)
  rw [physical_length _ (by omega)]
  unfold maxDataSize at hd
  unfold physMax
  omega

/-- The size byte of legal data does not overflow. -/
theorem sizeByte_toNat {p : Params} (hp : p.Legal) {n : Nat} (hn : n ≤ maxDataSize p) :
    (BitVec.ofNat 8 (8 + n) : Byte).toNat = 8 + n ∧ 8 + n ≤ 254 := by
  obtain ⟨hmin, hmax, -⟩ := hp
  unfold maxDataSize at hn
  have hbound : 8 + n ≤ 254 := by omega
  exact ⟨by rw [BitVec.toNat_ofNat]; omega, hbound⟩

theorem sizeByte_ne_sep {p : Params} (hp : p.Legal) {n : Nat} (hn : n ≤ maxDataSize p) :
    (BitVec.ofNat 8 (8 + n) : Byte) ≠ sep := by
  obtain ⟨hsize, hmax⟩ := sizeByte_toNat hp hn
  have hsep : sep.toNat = 255 := rfl
  intro h
  rw [h] at hsize
  omega

/-- The physical frame is the two separators, the size byte and the rest of the frame, stuffed. -/
theorem physical_logicalFrame_eq {p : Params} (hp : p.Legal) {d : List Byte} (hd : d.length ≤ maxDataSize p)
    (ft : Byte) (c : Bool) :
    physical (logicalFrame ft d c) =
      sep :: sep :: BitVec.ofNat 8 (8 + d.length) :: ((logicalFrame ft d c).drop 3).flatMap stuff := by
  have hthird : (logicalFrame ft d c)[2]? = some (BitVec.ofNat 8 (8 + d.length)) :=
    logicalFrame_getElem?_header (by decide) ft d c
  have hdrop : (logicalFrame ft d c).drop 2 = BitVec.ofNat 8 (8 + d.length) :: (logicalFrame ft d c).drop 3 := by
    rw [List.drop_eq_getElem?_toList_append, hthird]
    rfl
  rw [physical, hdrop, List.flatMap_cons, stuff, if_neg (sizeByte_ne_sep hp hd)]
  rfl

/-- Settles O15: position 2 is the size byte, which is no separator, and all that follows is stuffed. -/
theorem noSeparatorPairInsideFrame : Obligations.NoSeparatorPairInsideFrame := by
  intro p ft d c hp hd
  have hlen : (physical (logicalFrame ft d c)).length ≤ physMax p := physical_logicalFrame_length_le hp hd ft c
  have hthird : (BitVec.ofNat 8 (8 + d.length) : Byte) ≠ sep := sizeByte_ne_sep hp hd
  dsimp only
  rw [physical_logicalFrame_eq hp hd] at hlen ⊢
  refine ⟨rfl, rfl, fun hsep => hthird (Option.some.inj hsep), hlen, fun k hk hsep => ?_⟩
  match k with
  | 2 => exact absurd (Option.some.inj hsep) hthird
  | k + 3 => exact post_follows_sep_of_stuffed _ hsep

end Sys2Proof.Machine
end

section
/-! What one pass of the scanner can do (43_frame_scanner.md R115), and the induction over its passes. -/

namespace Sys2Proof.Machine

/-- The cases of one pass: in SYNC with or without a start, and in an open attempt by the next logical byte. -/
inductive PassCase (now : Word) (s : State) : Pass → Prop where
  | noStart (hsync : s.scn.phase = .sync) (hfound : (syncSearch s.rb).2 = false) :
      PassCase now s (.done (dropGarbage (syncSearch s.rb).1 s))
  | start (hsync : s.scn.phase = .sync) (hfound : (syncSearch s.rb).2 = true) :
      PassCase now s (.again (lock now (dropGarbage (syncSearch s.rb).1 s)))
  | needMore (hopen : s.scn.phase ≠ .sync) (hshort : s.rb.length ≤ s.scn.consumed + 1) : PassCase now s (.done s)
  | violation (hopen : s.scn.phase ≠ .sync) : PassCase now s (.again (abort .wrongPostByte s))
  | byte (hopen : s.scn.phase ≠ .sync) {b : Byte} {rest : List Byte}
      (hnext : s.rb.drop s.scn.consumed = stuff b ++ rest) : PassCase now s (.again (accept now b (b == sep) s))

theorem scanPass_cases {now : Word} {s : State} {r : Pass} (h : scanPass now s = .ok r) : PassCase now s r := by
  by_cases hphase : s.scn.phase = .sync
  · by_cases hfound : (syncSearch s.rb).2 = true
    · simp only [scanPass, hphase, hfound, if_true] at h
      cases h
      exact .start hphase hfound
    · simp only [scanPass, hphase, hfound, if_false, Bool.false_eq_true] at h
      cases h
      exact .noStart hphase (Bool.eq_false_iff.mpr hfound)
  · obtain ⟨hr, hshort⟩ | hr | ⟨b, rest, hr, hnext, -⟩ := nextLogical_cases s <;>
      rw [scanPass_open hphase hr] at h <;> cases h
    · exact .needMore hphase hshort
    · exact .violation hphase
    · exact .byte hphase hnext

/-- A property that every pass that goes on keeps, and that the last pass turns into `Q`, gives `Q` of the scan's
result. -/
theorem scan_induction {now : Word} {P Q : State → Prop}
    (hagain : ∀ s t, P s → PassCase now s (.again t) → P t) (hdone : ∀ s t, P s → PassCase now s (.done t) → Q t)
    {s t : State} (hs : P s) (h : scan now s = .ok t) : Q t := by
  induction hm : scanMeasure s using Nat.strong_induction_on generalizing s with
  | _ m ih =>
    obtain ⟨u, hpass | hpass, -⟩ := scanPass_frame now s
    · rw [scan_of_done hpass] at h
      cases h
      exact hdone s t hs (scanPass_cases hpass)
    · rw [scan_of_again hpass] at h
      exact ih (scanMeasure u) (hm ▸ scanPass_measure now s u hpass) (hagain s u hs (scanPass_cases hpass)) h rfl

/-! ### The bytes that a pass takes from RB -/

theorem abort_rb (e : FrameError) (s : State) : (abort e s).rb = s.rb.drop s.scn.consumed := by
  rw [abort_eq]

theorem dropGarbage_rb (k : Nat) (s : State) : (dropGarbage k s).rb = s.rb.drop k := by
  rw [dropGarbage_eq_ite]
  split
  case isTrue => rfl
  case isFalse h => rw [Nat.eq_zero_of_not_pos h, List.drop_zero]

theorem headerDone_rb (s : State) : (headerDone s).rb <:+ s.rb := by
  cases h : parseHeader s.params s.scn.asm .empty with
  | error e =>
    rw [headerDone_of_error h, abort_rb]
    exact List.drop_suffix _ _
  | ok hd =>
    rw [headerDone_of_ok h]

/-- An accepted byte stays in RB until its part of the frame is finished. -/
theorem accept_rb (now : Word) (b : Byte) (e : Bool) (s : State) : (accept now b e s).rb <:+ s.rb := by
  unfold accept finishPart
  split
  · exact headerDone_rb _
  split
  · rw [(bodyDone_ok now _).2]
    exact List.drop_suffix _ _
  · exact List.suffix_rfl

theorem pass_rb {now : Word} {s t : State} (h : PassCase now s (.again t) ∨ PassCase now s (.done t)) :
    t.rb <:+ s.rb := by
  rcases h with h | h <;> cases h
  case inl.start => rw [lock_rb, dropGarbage_rb]; exact List.drop_suffix _ _
  case inl.violation => rw [abort_rb]; exact List.drop_suffix _ _
  case inl.byte => exact accept_rb _ _ _ s
  case inr.noStart => rw [dropGarbage_rb]; exact List.drop_suffix _ _
  case inr.needMore => exact List.suffix_rfl

/-- Settles O29: the stale check and every pass drop bytes from the front, or none. -/
theorem scannerConsumesFromFront : Obligations.ScannerConsumesFromFront := by
  intro now s s' h
  have hstale : (staleCheck now s).rb <:+ s.rb := by
    unfold staleCheck
    split
    · rw [abort_rb]; exact List.drop_suffix _ _
    · exact List.suffix_rfl
  have hscan : s'.rb <:+ s.rb :=
    scan_induction (P := fun t => t.rb <:+ s.rb) (Q := fun t => t.rb <:+ s.rb)
      (fun _ _ hs hpass => (pass_rb (.inl hpass)).trans hs) (fun _ _ hs hpass => (pass_rb (.inr hpass)).trans hs)
      hstale h
  obtain ⟨gone, hgone⟩ := hscan
  exact ⟨gone, hgone.symm⟩

end Sys2Proof.Machine
end

section
/-! The scanner's part of the invariant: every operation of a scan keeps the bounds of RB and FIFO and leaves the
attempt the unstuffed front of RB (10_state.md R28 to R30, 60_exceptions.md R155). -/

namespace Sys2Proof.Machine

/-- The bounds of the receive side. -/
structure RxBounds (s : State) : Prop where
  params : s.params.Legal
  rbBound : s.rb.length ≤ rbCapEff s.params
  fifoBound : s.fifo.length ≤ s.params.fifoCap
  fifoData : ∀ f ∈ s.fifo, f.data.length ≤ maxDataSize s.params
  frameErr : s.frameErr.fromLine = true

/-- What the scan relies on and keeps. -/
structure ScanInv (s : State) : Prop extends RxBounds s where
  scanner : s.scn.Ok s.params s.rb

theorem MachineInv.scanInv {s : State} (h : MachineInv s) : ScanInv s where
  params := h.params
  rbBound := h.rbBound
  fifoBound := h.fifoBound
  fifoData := h.fifoData
  frameErr := h.frameErr
  scanner := h.scanner

/-! ### The attempt -/

theorem byteAt_append {a : List Byte} {k : Nat} (h : k < a.length) (more : List Byte) :
    byteAt (a ++ more) k = byteAt a k := by
  simp [byteAt, List.getElem?_append_left h]

/-- More bytes behind an attempt do not touch it. -/
theorem Attempt.append {rb : List Byte} {c : Scanner} (h : Attempt rb c) (more : List Byte) :
    Attempt (rb ++ more) c where
  separators := h.separators
  third := by
    obtain ⟨hlen, hbyte⟩ := h.third
    exact ⟨by rw [List.length_append]; omega, by rwa [byteAt_append (by omega)]⟩
  within := by
    have hwithin := h.within
    rw [List.length_append]
    omega
  unstuffed := by rw [List.take_append_of_le_length h.within, h.unstuffed]
  escapes := h.escapes

theorem Scanner.Ok.append {p : Params} {rb : List Byte} {c : Scanner} (h : c.Ok p rb) (more : List Byte) :
    c.Ok p (rb ++ more) := by
  unfold Scanner.Ok at h ⊢
  split at h
  · exact h
  · exact ⟨h.1.append more, h.2⟩
  · exact ⟨h.1.append more, h.2⟩

theorem scannerOk_idle (p : Params) (rb : List Byte) : Scanner.idle.Ok p rb := rfl

/-- The bytes consumed are the physical form of the logical ones. -/
theorem Attempt.consumed_eq {rb : List Byte} {c : Scanner} (h : Attempt rb c) :
    c.consumed = (physical c.asm).length := by
  rw [← h.unstuffed, List.length_take, Nat.min_eq_left h.within]

/-- Every logical byte after the separators takes at most two bytes of RB. -/
theorem Attempt.consumed_le {rb : List Byte} {c : Scanner} (h : Attempt rb c) :
    c.consumed + 2 ≤ 2 * c.asm.length := by
  have hlen : 2 ≤ c.asm.length := attempt_asm_length h
  have hescapes : (c.asm.drop 2).count sep ≤ c.asm.length - 2 :=
    List.count_le_length.trans (List.length_drop ▸ Nat.le_refl _)
  rw [h.consumed_eq, physical_length _ hlen]
  omega

/-- An attempt just after a byte was accepted and before its part is finished: it may be one byte longer than the
scanner holds between two passes. -/
structure Grown (p : Params) (rb : List Byte) (c : Scanner) : Prop where
  attempt : Attempt rb c
  phase : (c.phase = .header ∧ c.asm.length ≤ 10 ∧ c.useCrc = false ∧ c.ftype = 0 ∧ c.dataLen = 0) ∨
    (c.phase = .body ∧ 10 ≤ c.asm.length ∧ c.asm.length ≤ 10 + c.dataLen.toNat + trailerLen c.useCrc ∧
      parseHeader p (c.asm.take 10) .empty = .ok { ftype := c.ftype, useCrc := c.useCrc, dataLen := c.dataLen })

theorem acceptByte_asm (b : Byte) (e : Bool) (c : Scanner) : (acceptByte b e c).asm = c.asm ++ [b] := rfl

/-- Accepting the next logical byte lets the attempt grow by it. -/
theorem Scanner.Ok.grown {p : Params} {rb : List Byte} {c : Scanner} {b : Byte} {rest : List Byte} (h : c.Ok p rb)
    (hopen : c.phase ≠ .sync) (hnext : rb.drop c.consumed = stuff b ++ rest) :
    Grown p rb (acceptByte b (b == sep) c) := by
  unfold Scanner.Ok at h
  split at h
  case h_1 hsync => exact absurd hsync hopen
  case h_2 hheader =>
    obtain ⟨hattempt, hlen, huseCrc, hftype, hdataLen⟩ := h
    refine ⟨attempt_accept hattempt hnext (.inl ⟨hheader, hdataLen, hlen⟩),
      .inl ⟨hheader, ?_, huseCrc, hftype, hdataLen⟩⟩
    rw [acceptByte_asm, List.length_append]
    exact hlen
  case h_3 hbody =>
    obtain ⟨hattempt, hheader, hlen, hparse⟩ := h
    refine ⟨attempt_accept hattempt hnext (.inr hbody), .inr ⟨hbody, ?_, ?_, ?_⟩⟩
    · rw [acceptByte_asm, List.length_append]
      exact Nat.le_add_right_of_le hheader
    · rw [acceptByte_asm, List.length_append]
      exact hlen
    · rw [acceptByte_asm, List.take_append_of_le_length hheader]
      exact hparse

theorem trailerLen_pos (c : Bool) : 1 ≤ trailerLen c := by
  cases c <;> decide

/-- A parsed header opens the body: the covered range so far is the whole header but its separators. -/
theorem Attempt.toBody {p : Params} {rb : List Byte} {c : Scanner} {hd : Header} (h : Attempt rb c)
    (hlen : c.asm.length = 10) (hparse : parseHeader p c.asm .empty = .ok hd) :
    Scanner.Ok p rb { c with phase := .body, ftype := hd.ftype, useCrc := hd.useCrc, dataLen := hd.dataLen } := by
  have hcovered (n : Nat) : coveredOf c.asm n = c.asm.drop 2 := by
    rw [coveredOf, List.take_of_length_le (by omega)]
  have hescapes : c.esc = BitVec.ofNat 8 ((coveredOf c.asm hd.dataLen.toNat).count sep) := by
    rw [h.escapes, hcovered, hcovered]
  have htrailer := trailerLen_pos hd.useCrc
  refine ⟨⟨h.separators, h.third, h.within, h.unstuffed, hescapes⟩, hlen.ge, ?_, ?_⟩
  · show c.asm.length < 10 + hd.dataLen.toNat + trailerLen hd.useCrc
    omega
  · show parseHeader p (c.asm.take 10) .empty = .ok hd
    rw [List.take_of_length_le hlen.le, hparse]

theorem Grown.opened {p : Params} {rb : List Byte} {c : Scanner} (h : Grown p rb c) : c.phase ≠ .sync := by
  rcases h.phase with ⟨hphase, -⟩ | ⟨hphase, -⟩ <;> rw [hphase] <;> nofun

/-- A grown attempt that finishes no part is one the scanner holds. -/
theorem Grown.ok {p : Params} {rb : List Byte} {c : Scanner} (h : Grown p rb c)
    (hheader : ¬ (c.phase = .header ∧ c.asm.length = 10))
    (hbody : ¬ (c.phase = .body ∧ c.asm.length = 10 + c.dataLen.toNat + trailerLen c.useCrc)) : c.Ok p rb := by
  unfold Scanner.Ok
  rcases h.phase with ⟨hphase, hlen, hdefaults⟩ | ⟨hphase, hlow, hlen, hparse⟩
  · rw [hphase]
    exact ⟨h.attempt, lt_of_le_of_ne hlen fun heq => hheader ⟨hphase, heq⟩, hdefaults⟩
  · rw [hphase]
    exact ⟨h.attempt, hlow, lt_of_le_of_ne hlen fun heq => hbody ⟨hphase, heq⟩, hparse⟩

/-! ### The operations of a pass -/

theorem RxBounds.abort {s : State} (h : RxBounds s) {e : FrameError} (he : e.fromLine = true) :
    ScanInv (abort e s) := by
  rw [abort_eq]
  exact { h with
    rbBound := (List.drop_sublist _ _).length_le.trans h.rbBound
    frameErr := he
    scanner := scannerOk_idle _ _ }

theorem RxBounds.dropGarbage {s : State} (h : RxBounds s) (k : Nat) : RxBounds (dropGarbage k s) := by
  rw [dropGarbage_eq_ite]
  split
  · exact { h with rbBound := (List.drop_sublist _ _).length_le.trans h.rbBound }
  · exact h

theorem isStart_drop (rb : List Byte) (k : Nat) : IsStart (rb.drop k) 0 ↔ IsStart rb k := by
  rw [isStart_iff_byteAt, isStart_iff_byteAt, List.drop_zero, List.length_drop]
  exact and_congr (by omega) Iff.rfl

/-- A start at the front of RB is locked as an attempt of its two separators. -/
theorem lock_scannerOk {s : State} (hstart : IsStart s.rb 0) (p : Params) (now : Word) :
    (lock now s).scn.Ok p s.rb := by
  obtain ⟨hlen, h0, h1, h2⟩ := (isStart_iff_byteAt _ _).mp hstart
  match hrb : s.rb with
  | [] | [_] | [_, _] =>
    rw [hrb] at hlen
    simp at hlen
  | a :: b :: x :: rest =>
    rw [hrb] at h0 h1 h2
    obtain rfl : a = sep := h0
    obtain rfl : b = sep := h1
    exact ⟨⟨rfl, ⟨by simp, h2⟩, by simp, rfl, rfl⟩, Nat.le_of_ble_eq_true rfl, rfl, rfl, rfl⟩

theorem RxBounds.lock {s : State} (h : RxBounds s) (hstart : IsStart s.rb 0) (now : Word) : ScanInv (lock now s) :=
  { h with scanner := lock_scannerOk hstart _ now }

theorem RxBounds.fifoPush {s : State} (h : RxBounds s) {f : RxFrame} (hf : f.data.length ≤ maxDataSize s.params) :
    RxBounds (fifoPush f s) := by
  have hbound := h.fifoBound
  obtain ⟨-, -, -, hcap, -⟩ := h.params
  have hkept : ∀ g ∈ s.fifo.drop 1, g.data.length ≤ maxDataSize s.params :=
    fun g hg => h.fifoData g (List.mem_of_mem_drop hg)
  rw [fifoPush_eq]
  refine { h with fifoBound := ?_, fifoData := ?_ }
  · split <;> simp <;> omega
  · intro g hg
    rcases List.mem_append.mp hg with hold | hnew
    · split at hold
      · exact hkept g hold
      · exact h.fifoData g hold
    · rwa [List.mem_singleton.mp hnew]

/-- The last byte of a body comes in an attempt whose header has been parsed. -/
theorem Grown.parsed {p : Params} {rb : List Byte} {c : Scanner} (h : Grown p rb c) (hbody : c.phase = .body) :
    10 ≤ c.asm.length ∧
      parseHeader p (c.asm.take 10) .empty = .ok { ftype := c.ftype, useCrc := c.useCrc, dataLen := c.dataLen } := by
  rcases h.phase with ⟨hheader, -⟩ | ⟨-, hten, -, hparse⟩
  · cases hheader.symm.trans hbody
  · exact ⟨hten, hparse⟩

/-- The last byte of a body ends the attempt, with a frame of legal data or with a frame error of the line. -/
theorem RxBounds.bodyDone {s : State} (h : RxBounds s)
    (hlen : s.scn.asm.length = 10 + s.scn.dataLen.toNat + trailerLen s.scn.useCrc)
    (hdata : s.scn.dataLen.toNat ≤ maxDataSize s.params) (now : Word) : ScanInv (bodyDone now s) := by
  cases hparse : parseBody s.scn.asm { ftype := s.scn.ftype, useCrc := s.scn.useCrc, dataLen := s.scn.dataLen }
      s.scn.esc .headerOnly with
  | error e =>
    rw [bodyDone_of_error hparse]
    exact h.abort (parseBody_error_fromLine hlen.ge hparse)
  | ok f =>
    rw [bodyDone_of_ok hparse]
    have hframe : f.data.length ≤ maxDataSize s.params := by
      rw [eq_of_parseBody_ok hparse]
      simp only [List.length_drop, List.length_take]
      omega
    have hdropped : RxBounds { s with rb := s.rb.drop s.scn.consumed } :=
      { h with rbBound := (List.drop_sublist _ _).length_le.trans h.rbBound }
    exact { hdropped.fifoPush hframe with scanner := scannerOk_idle _ _ }

theorem parseHeader_dataLen_le {p : Params} {a : List Byte} {hd : Header} (h : parseHeader p a .empty = .ok hd) :
    hd.dataLen.toNat ≤ maxDataSize p := by
  obtain ⟨-, hmax⟩ := parseHeader_len h
  unfold maxDataSize
  omega

/-- The tenth byte ends the header, with a body opened or with a frame error of the line. -/
theorem RxBounds.headerDone {s : State} (h : RxBounds s) (hattempt : Attempt s.rb s.scn)
    (hlen : s.scn.asm.length = 10) : ScanInv (headerDone s) := by
  cases hparse : parseHeader s.params s.scn.asm .empty with
  | error e =>
    rw [headerDone_of_error hparse]
    exact h.abort (parseHeader_error_fromLine hattempt.separators hlen.ge hparse)
  | ok hd =>
    rw [headerDone_of_ok hparse]
    exact { h with scanner := hattempt.toBody hlen hparse }

/-- Finishing a part of a grown attempt, or none, gives back the invariant of the scan. -/
theorem RxBounds.finishPart {s : State} (h : RxBounds s) (hgrown : Grown s.params s.rb s.scn) (now : Word) :
    ScanInv (finishPart now s) := by
  by_cases hheader : s.scn.phase = .header ∧ s.scn.asm.length = 10
  · rw [finishPart_of_header hheader]
    exact h.headerDone hgrown.attempt hheader.2
  by_cases hbody : s.scn.phase = .body ∧
      s.scn.asm.length = 10 + s.scn.dataLen.toNat + trailerLen s.scn.useCrc
  · rw [finishPart_of_body hheader hbody]
    obtain ⟨-, hparse⟩ := hgrown.parsed hbody.1
    exact h.bodyDone hbody.2 (parseHeader_dataLen_le hparse) now
  · rw [finishPart_of_inside hheader hbody]
    exact { h with scanner := hgrown.ok hheader hbody }

/-- Every pass keeps the invariant of the scan. -/
theorem ScanInv.pass {now : Word} {s t : State} (h : ScanInv s)
    (hpass : PassCase now s (.again t) ∨ PassCase now s (.done t)) : ScanInv t := by
  rcases hpass with hpass | hpass <;> cases hpass
  case inl.start _ hfound =>
    refine (h.toRxBounds.dropGarbage _).lock ?_ now
    rw [dropGarbage_rb, isStart_drop]
    exact syncSearch_isStart hfound
  case inl.violation => exact h.toRxBounds.abort rfl
  case inl.byte hopen b rest hnext =>
    have hgrown := h.scanner.grown hopen hnext
    have hbounds : RxBounds { s with scn := acceptByte b (b == sep) s.scn } := { h.toRxBounds with }
    exact hbounds.finishPart hgrown now
  case inr.noStart hsync _ =>
    have hidle : s.scn = Scanner.idle := by
      have hok := h.scanner
      rwa [Scanner.Ok, hsync] at hok
    refine { h.toRxBounds.dropGarbage _ with scanner := ?_ }
    rw [dropGarbage_eq_ite]
    split <;> simp only [hidle] <;> exact scannerOk_idle _ _
  case inr.needMore => exact h

theorem ScanInv.staleCheck {s : State} (h : ScanInv s) (now : Word) : ScanInv (staleCheck now s) := by
  unfold Machine.staleCheck
  split
  · exact h.toRxBounds.abort rfl
  · exact h

/-- Reading the line appends what fits to RB. -/
theorem ScanInv.readData {s : State} (h : ScanInv s) : ScanInv (readData s) := by
  rw [readData_eq]
  have hroom : s.rb.length + rbFree s = rbCapEff s.params := Nat.add_sub_of_le h.rbBound
  refine { h with rbBound := ?_, scanner := h.scanner.append _ }
  simp only [List.length_append, List.length_take]
  omega

/-- `process_data` keeps the invariant of the scan. -/
theorem ScanInv.processData {now : Word} {s t : State} (h : ScanInv s) (hscan : processData now s = .ok t) :
    ScanInv t :=
  scan_induction (fun _ _ hs hpass => hs.pass (.inl hpass)) (fun _ _ hs hpass => hs.pass (.inr hpass))
    (h.staleCheck now) hscan

/-! ### Room for another byte -/

/-- An open attempt that waits for its next logical byte is shorter than the longest physical frame. -/
theorem Scanner.Ok.consumed_lt {p : Params} {rb : List Byte} {c : Scanner} (hp : p.Legal) (h : c.Ok p rb)
    (hopen : c.phase ≠ .sync) : c.consumed + 1 < physMax p := by
  obtain ⟨hmin, -⟩ := hp
  unfold physMax
  unfold Scanner.Ok at h
  split at h
  case h_1 hsync => exact absurd hsync hopen
  case h_2 =>
    obtain ⟨hattempt, hlen, -⟩ := h
    have hconsumed := hattempt.consumed_le
    omega
  case h_3 =>
    obtain ⟨hattempt, -, hlen, hparse⟩ := h
    have hconsumed := hattempt.consumed_le
    obtain ⟨-, hmax⟩ := parseHeader_len hparse
    have htrailer : trailerLen c.useCrc ≤ 3 := by cases c.useCrc <;> decide
    dsimp only at hmax
    omega

theorem physMax_le_rbCapEff (p : Params) : physMax p ≤ rbCapEff p := Nat.le_max_right _ _

/-- The pass that returns leaves room in RB. -/
theorem ScanInv.room_of_done {now : Word} {s t : State} (h : ScanInv s) (hpass : PassCase now s (.done t)) :
    t.rb.length < rbCapEff t.params := by
  cases hpass with
  | noStart _ hfound =>
    have hkept := (syncSearch_tail _ hfound).2
    have hparams : (dropGarbage (syncSearch s.rb).1 s).params = s.params := by
      rw [dropGarbage_eq_ite]
      split <;> rfl
    have hcap := physMax_le_rbCapEff s.params
    unfold physMax at hcap
    rw [hparams, dropGarbage_rb, List.length_drop]
    omega
  | needMore hopen hshort =>
    have hconsumed := h.scanner.consumed_lt h.params hopen
    have hcap := physMax_le_rbCapEff s.params
    omega

/-- Settles O30: the scan returns from a pass that leaves at most two separators or an attempt not yet complete. -/
theorem scannerLeavesRoom : Obligations.ScannerLeavesRoom := by
  intro now s s' hinv hscan
  exact scan_induction (P := ScanInv) (Q := fun t => t.rb.length < rbCapEff t.params)
    (fun _ _ hs hpass => hs.pass (.inl hpass)) (fun _ _ hs hpass => hs.room_of_done hpass)
    (hinv.scanInv.readData.staleCheck now) hscan

end Sys2Proof.Machine
end

section
/-! What LOOP can do (44_sequencer.md R128, R129, R131): the cases of its state step, and the elements that a whole LOOP
leaves alone. -/

namespace Sys2Proof.Machine

/-- The cases of LOOP's state step. -/
inductive EngineCase (now : Word) (s : State) : State → Prop where
  | dispatch {older : List RxFrame} {f : RxFrame} (hidle : s.eng.state = .idle) (hfifo : s.fifo = older ++ [f]) :
      EngineCase now s (dispatchMessage f { shed s with fifo := [] })
  | send {h : OutItem} {rest : List OutItem} (hidle : s.eng.state = .idle) (hoq : s.oq = h :: rest) :
      EngineCase now s (sendHead now h s)
  | giveUp {h : OutItem} {rest : List OutItem} (hwait : s.eng.state = .waiting) (hoq : s.oq = h :: rest) :
      EngineCase now s (postCallout .timeout h.ftype 0 h.useCrc [] now (addTimeout { s with oq := rest }))
  | retry {h : OutItem} {rest : List OutItem} (hwait : s.eng.state = .waiting) (hoq : s.oq = h :: rest)
      (hleft : h.retries ≠ 0) : EngineCase now s { s with eng := { s.eng with state := .idle } }
  | answer {h : OutItem} {f : RxFrame} {later : List RxFrame} (hwait : s.eng.state = .waiting)
      (hfifo : s.fifo = f :: later) :
      EngineCase now s (postCallout .answer h.ftype f.ftype f.useCrc f.data f.arrival { s with fifo := later })
  | stay : EngineCase now s s

theorem idleStep_cases (now : Word) {s : State} (hidle : s.eng.state = .idle) :
    EngineCase now s (idleStep now s) := by
  rcases List.eq_nil_or_concat s.fifo with hfifo | ⟨older, f, hfifo⟩
  · cases hoq : s.oq with
    | nil =>
      rw [idleStep_of_quiet now hfifo hoq]
      exact .stay
    | cons h rest =>
      rw [idleStep_of_item now hfifo hoq]
      split
      · exact .send hidle hoq
      · exact .stay
  · rw [idleStep_of_frame now (hfifo.trans (List.concat_eq_append ..))]
    exact .dispatch hidle (hfifo.trans (List.concat_eq_append ..))

theorem waitingStep_cases {now : Word} {s t : State} (hwait : s.eng.state = .waiting)
    (hstep : waitingStep now s = .ok t) : EngineCase now s t := by
  cases hoq : s.oq with
  | nil =>
    rw [waitingStep, hoq] at hstep
    cases hstep
  | cons h rest =>
    by_cases hlate : (now - s.eng.ansBase).toNat > s.params.answerTimeoutMs
    · by_cases hlast : h.retries = 0
      · rw [waitingStep_of_late_last hoq hlate hlast] at hstep
        cases hstep
        exact .giveUp hwait hoq
      · rw [waitingStep_of_late_retry hoq hlate hlast] at hstep
        cases hstep
        exact .retry hwait hoq hlast
    · cases hfifo : s.fifo with
      | nil =>
        rw [waitingStep_of_nothing hoq hlate hfifo] at hstep
        cases hstep
        exact .stay
      | cons f later =>
        rw [waitingStep_of_answer hoq hlate hfifo] at hstep
        cases hstep
        exact .answer hwait hfifo

theorem engineStep_cases {now : Word} {s t : State} (hstep : engineStep now s = .ok t) : EngineCase now s t := by
  cases hstate : s.eng.state with
  | idle =>
    rw [engineStep_of_idle hstate] at hstep
    cases hstep
    exact idleStep_cases now hstate
  | waiting =>
    rw [engineStep_of_waiting hstate] at hstep
    exact waitingStep_cases hstate hstep

/-- LOOP past its test is the line, the scan and one case of the state step. -/
theorem loopBody_cases {now : Word} {s t : State} (h : loopBody now s = .ok t) :
    ∃ s1, processData now (readData s) = .ok s1 ∧ EngineCase now s1 t := by
  unfold loopBody at h
  split at h
  · cases h
  · exact ⟨_, ‹_›, engineStep_cases h⟩

/-! ### The frame of LOOP -/

/-- What LOOP may change; it clears no WARN bit, and leaves WARN[6:4] and the counter NO_ANSWER alone. -/
structure LoopFrame (s t : State) : Prop where
  same : t = { s with rb := t.rb, scn := t.scn, fifo := t.fifo, oq := t.oq, eng := t.eng, evt := t.evt,
                      warn := t.warn, frameErr := t.frameErr, rxLine := t.rxLine, txLine := t.txLine,
                      stat := { t.stat with noAnswer := s.stat.noAnswer } }
  warnKept : s.warn &&& t.warn = s.warn
  warnHigh : t.warn.extractLsb' 4 3 = s.warn.extractLsb' 4 3

theorem LoopFrame.trans {s t u : State} (h : LoopFrame s t) (k : LoopFrame t u) : LoopFrame s u := by
  obtain ⟨h1, h2, h3⟩ := h
  obtain ⟨k1, k2, k3⟩ := k
  refine ⟨?_, ?_, by rw [k3, h3]⟩
  · rw [k1, h1]
  · rw [← h2, BitVec.and_assoc, k2]

theorem LoopFrame.warnHandler {s t : State} (h : LoopFrame s t) :
    t.warn.extractLsb' 4 2 = s.warn.extractLsb' 4 2 := by
  refine BitVec.eq_of_getLsbD_eq fun k hk => ?_
  simpa [hk, show k < 3 by omega] using congrArg (BitVec.getLsbD · k) h.warnHigh

theorem LoopFrame.warnCmd {s t : State} (h : LoopFrame s t) : t.warn.getLsbD 6 = s.warn.getLsbD 6 := by
  simpa using congrArg (BitVec.getLsbD · 2) h.warnHigh

theorem ScanFrame.loopFrame {s t : State} (h : ScanFrame s t) : LoopFrame s t :=
  ⟨by rw [h.same], h.warnKept, h.warnHigh⟩

theorem readData_loopFrame (s : State) : LoopFrame s (readData s) := by
  rw [readData_eq]
  exact ⟨rfl, BitVec.and_self, rfl⟩

theorem sendHead_loopFrame (now : Word) {h : OutItem} {rest : List OutItem} {s : State} (hoq : s.oq = h :: rest) :
    LoopFrame s (sendHead now h s) := by
  cases hreq : h.expectsAnswer with
  | true =>
    rw [sendHead_of_request now hoq hreq, sendData_snd]
    split <;> exact ⟨rfl, BitVec.and_self, rfl⟩
  | false =>
    rw [sendHead_of_notification now hoq hreq, sendData_snd]
    split <;> exact ⟨rfl, BitVec.and_self, rfl⟩

theorem EngineCase.loopFrame {now : Word} {s t : State} (h : EngineCase now s t) : LoopFrame s t := by
  cases h with
  | dispatch _ hfifo =>
    rw [shed_of_append hfifo]
    refine ⟨rfl, ?_, ?_⟩
    · show s.warn &&& (if _ then s.warn else s.warn ||| warnShed) = s.warn
      split
      · exact BitVec.and_self
      · exact warn_or_kept _ _
    · show BitVec.extractLsb' 4 3 (if _ then s.warn else s.warn ||| warnShed) = _
      split
      · rfl
      · rw [BitVec.extractLsb'_or, show warnShed.extractLsb' 4 3 = 0#3 by decide, BitVec.or_zero]
  | send _ hoq => exact sendHead_loopFrame now hoq
  | giveUp | retry | answer | stay => exact ⟨rfl, BitVec.and_self, rfl⟩

theorem loopBody_loopFrame {now : Word} {s t : State} (h : loopBody now s = .ok t) : LoopFrame s t := by
  obtain ⟨s1, hscan, hengine⟩ := loopBody_cases h
  obtain ⟨s1', hscan', hframe⟩ := processData_frame now (readData s)
  obtain rfl : s1' = s1 := Except.ok.inj (hscan'.symm.trans hscan)
  exact ((readData_loopFrame s).trans hframe.loopFrame).trans hengine.loopFrame

/-! ### LOOP completes -/

/-- Settles O31: the line and the scan never stop LOOP, and the state step does so only when it finds nothing
outstanding in WAITING, which the scan does not bring about. -/
theorem loopCompletes : Obligations.LoopCompletes := by
  refine ⟨fun s => readData_eq s, fun s hcallout hwaiting => ?_⟩
  obtain ⟨s1, hscan, hsame, -, -⟩ := processData_frame s.time (readData s)
  rw [readData_eq] at hsame
  have hwaiting1 : s1.eng.state = .waiting → s1.oq ≠ [] := by
    rw [hsame]
    exact hwaiting
  obtain ⟨t, hengine, hframe⟩ := engineStep_frame s.time hwaiting1
  refine ⟨cmdOk t, exec_loop_of_engineStep hcallout hscan hengine, ?_⟩
  unfold EngineFrame at hframe
  rw [hframe, hsame]
  rfl

/-- With nothing on the line, nothing in RB and no open attempt the scan changes nothing. -/
theorem processData_quiet (now : Word) {s : State} (hline : s.rxLine = []) (hrb : s.rb = [])
    (hscn : s.scn = Scanner.idle) : processData now (readData s) = .ok s := by
  have hread : readData s = s := by
    rw [readData_eq, hline, List.take_nil, List.drop_nil, List.append_nil, ← hline]
  have hsync : s.scn.phase = .sync := by rw [hscn]; rfl
  have hsearch : syncSearch s.rb = (0, false) := by rw [hrb]; rfl
  rw [hread, processData, staleCheck_of_fresh (.inl hsync), scan_sync hsync, hsearch]
  rfl

/-- Settles O32: a quiet scan, and the idle step with no frame and no item queued. -/
theorem quietLoopChangesNothing : Obligations.QuietLoopChangesNothing := by
  intro s hcallout hidle hline hrb hscn hfifo hoq
  have hstep : engineStep s.time s = .ok s := by
    rw [engineStep_of_idle hidle, idleStep_of_quiet s.time hfifo hoq]
  exact exec_loop_of_engineStep hcallout (processData_quiet s.time hline hrb hscn) hstep

end Sys2Proof.Machine
end

section
/-! What a command can do (60_exceptions.md R153, R154): it fails with the first error of its context and changes no
more than a failure does, or it completes with the update of its rule. -/

namespace Sys2Proof.Machine

/-- The error of SEND_MESSAGE and SEND_MESSAGE_NA (R133, R134), `.ok` for none. -/
def queueError (s : State) : CmdCode :=
  if (stagedData s).length > maxDataSize s.params then .oversize
  else if s.oq.length = s.params.oqCap then .queueFull else .ok

/-- The first error in the order of a command's tests, `.ok` for none. -/
def commandError (i : Instr) (s : State) : CmdCode :=
  match i with
  | .loop => if s.eng.callout ≠ .none then .busyInCallout else .ok
  | .handlerReturn _ => if s.eng.callout = .none then .notInCallout else .ok
  | .sendMessage _ _ _ => queueError s
  | .sendMessageNa _ _ => queueError s
  | .sendAnswer _ m =>
    if s.eng.processing = false then .notInHandler
    else if m = .reserved then .badOperand
    else if (stagedData s).length > maxDataSize s.params then .oversize else .ok
  | .noAnswer => if s.eng.processing = false then .notInHandler else .ok
  | .stagePush _ => if s.stg.data.length = maxDataSize s.params then .stageFull else .ok
  | _ => .ok

/-- What a command that completes does before it clears CMD_STATUS. -/
inductive Completes (s : State) : Instr → State → Prop where
  | nop : Completes s .nop s
  | reset : Completes s .reset (resetState s)
  | loop {t : State} (hcallout : s.eng.callout = .none) (hbody : loopBody s.time s = .ok t) : Completes s .loop t
  | crcInit (h : Half) : Completes s (.crcInit h) { s with crcAcc := h }
  | crcFeed (b : Byte) : Completes s (.crcFeed b) { s with crcAcc := crc16Byte s.crcAcc b }
  | chkInit (b : Byte) : Completes s (.chkInit b) { s with chkAcc := b }
  | chkFeed (b : Byte) : Completes s (.chkFeed b) { s with chkAcc := s.chkAcc + b }
  | stageClear : Completes s .stageClear { s with stg := { data := [], subcmd := 0, retry := s.stg.retry } }
  | stagePush (b : Byte) (hroom : s.stg.data.length ≠ maxDataSize s.params) :
      Completes s (.stagePush b) { s with stg := { s.stg with data := s.stg.data ++ [b] } }
  | stageSubcmd (h : Half) : Completes s (.stageSubcmd h) { s with stg := { s.stg with subcmd := h } }
  | stageRetry (t : U24) : Completes s (.stageRetry t) { s with stg := { s.stg with retry := t } }
  | sendMessage (ft : Byte) (c : Bool) (r : Byte) (hfits : (stagedData s).length ≤ maxDataSize s.params)
      (hroom : s.oq.length ≠ s.params.oqCap) :
      Completes s (.sendMessage ft c r) { s with oq := s.oq ++
        [{ ftype := ft, data := stagedData s, useCrc := c, expectsAnswer := true, retries := retryCount s.params r,
           retryInterval := s.stg.retry }] }
  | sendMessageNa (ft : Byte) (c : Bool) (hfits : (stagedData s).length ≤ maxDataSize s.params)
      (hroom : s.oq.length ≠ s.params.oqCap) :
      Completes s (.sendMessageNa ft c) { s with oq := s.oq ++
        [{ ftype := ft, data := stagedData s, useCrc := c, expectsAnswer := false, retries := 1,
           retryInterval := 0 }] }
  | sendAnswer (ft : Byte) (m : CrcMode) (hin : s.eng.processing = true)
      (hfits : (stagedData s).length ≤ maxDataSize s.params) :
      Completes s (.sendAnswer ft m) { s with
        txLine := s.txLine ++ physical (logicalFrame ft (stagedData s) (answerCrc m s.eng.inUseCrc))
        stat := { s.stat with txFrames := s.stat.txFrames + 1 }
        eng := { s.eng with answerSent := true, lastSend := s.time, coolArmed := true } }
  | noAnswer (hin : s.eng.processing = true) :
      Completes s .noAnswer { s with eng := { s.eng with noAnswer := true } }
  | handlerReturn (res : HandlerResult) (hcallout : s.eng.callout ≠ .none) :
      Completes s (.handlerReturn res) (calloutReturn res s)

/-- A command that answers a next state fails or completes. -/
def ExecCase (i : Instr) (s s' : State) : Prop :=
  (commandError i s ≠ .ok ∧ s' = cmdFail (commandError i s) s) ∨
  (commandError i s = .ok ∧ ∃ t, Completes s i t ∧ s' = cmdOk t)

section
variable {i : Instr} {s s' t : State} {c : CmdCode}

theorem ExecCase.of_failed (h : exec i s = .next s') (hexec : exec i s = .next (cmdFail c s))
    (herror : commandError i s = c) (hc : c ≠ .ok) : ExecCase i s s' := by
  obtain rfl : s' = cmdFail c s := Host.Outcome.next.inj (h.symm.trans hexec)
  exact .inl ⟨herror ▸ hc, by rw [herror]⟩

theorem ExecCase.of_completed (ht : Completes s i t) (h : exec i s = .next s') (hexec : exec i s = .next (cmdOk t))
    (herror : commandError i s = .ok) : ExecCase i s s' := by
  obtain rfl : s' = cmdOk t := Host.Outcome.next.inj (h.symm.trans hexec)
  exact .inr ⟨herror, t, ht, rfl⟩

/-- The two commands that queue an item have the same tests. -/
theorem ExecCase.of_enqueueItem {item : OutItem} (h : exec i s = .next s')
    (hexec : exec i s = .next (enqueueItem item s)) (hdata : item.data = stagedData s)
    (herror : commandError i s = queueError s)
    (ht : (stagedData s).length ≤ maxDataSize s.params → s.oq.length ≠ s.params.oqCap →
      Completes s i { s with oq := s.oq ++ [item] }) : ExecCase i s s' := by
  by_cases hbig : maxDataSize s.params < (stagedData s).length
  · rw [enqueueItem_oversize (hdata ▸ hbig)] at hexec
    exact .of_failed h hexec (herror.trans (if_pos hbig)) (by decide)
  have hfits : (stagedData s).length ≤ maxDataSize s.params := Nat.not_lt.mp hbig
  by_cases hfull : s.oq.length = s.params.oqCap
  · rw [enqueueItem_full (hdata ▸ hfits) hfull] at hexec
    exact .of_failed h hexec (herror.trans ((if_neg hbig).trans (if_pos hfull))) (by decide)
  · rw [enqueueItem_room (hdata ▸ hfits) hfull] at hexec
    exact .of_completed (ht hfits hfull) h hexec (herror.trans ((if_neg hbig).trans (if_neg hfull)))

theorem ExecCase.of_loop (h : exec .loop s = .next s') : ExecCase .loop s s' := by
  by_cases hcallout : s.eng.callout = .none
  · cases hbody : loopBody s.time s with
    | error f =>
      have hfault : exec .loop s = .fault f := by simp [exec, execLoop, hcallout, hbody]
      rw [hfault] at h
      cases h
    | ok t =>
      have hnext : exec .loop s = .next (cmdOk t) := by simp [exec, execLoop, hcallout, hbody]
      exact .of_completed (.loop hcallout hbody) h hnext (if_neg (not_not_intro hcallout))
  · exact .of_failed h (if_pos hcallout) (if_pos hcallout) (by decide)

theorem ExecCase.of_sendAnswer {ft : Byte} {m : CrcMode} (h : exec (.sendAnswer ft m) s = .next s') :
    ExecCase (.sendAnswer ft m) s s' := by
  by_cases hout : s.eng.processing = false
  · exact .of_failed h (exec_sendAnswer_outside hout ft m) (if_pos hout) (by decide)
  have hin : s.eng.processing = true := Bool.of_not_eq_false hout
  by_cases hm : m = .reserved
  · subst hm
    exact .of_failed h (exec_sendAnswer_reserved hin ft) (if_neg hout) (by decide)
  by_cases hbig : maxDataSize s.params < (stagedData s).length
  · exact .of_failed h (exec_sendAnswer_oversize hin hm hbig ft)
      ((if_neg hout).trans ((if_neg hm).trans (if_pos hbig))) (by decide)
  · have hfits : (stagedData s).length ≤ maxDataSize s.params := Nat.not_lt.mp hbig
    exact .of_completed (.sendAnswer ft m hin hfits) h (exec_sendAnswer_fits hin hm hfits ft)
      ((if_neg hout).trans ((if_neg hm).trans (if_neg hbig)))

end

theorem exec_cases {i : Instr} {s s' : State} (h : exec i s = .next s') : ExecCase i s s' := by
  cases i with
  | nop => exact .of_completed .nop h (exec_nop s) rfl
  | reset => exact .of_completed .reset h rfl rfl
  | loop => exact .of_loop h
  | crcInit x => exact .of_completed (.crcInit x) h (exec_crcInit x s) rfl
  | crcFeed b => exact .of_completed (.crcFeed b) h (exec_crcFeed b s) rfl
  | chkInit b => exact .of_completed (.chkInit b) h (exec_chkInit b s) rfl
  | chkFeed b => exact .of_completed (.chkFeed b) h (exec_chkFeed b s) rfl
  | stageClear => exact .of_completed .stageClear h (exec_stageClear s) rfl
  | stagePush b =>
    by_cases hfull : s.stg.data.length = maxDataSize s.params
    · exact .of_failed h (exec_stagePush_full hfull b) (if_pos hfull) (by decide)
    · exact .of_completed (.stagePush b hfull) h (exec_stagePush_room hfull b) (if_neg hfull)
  | stageSubcmd x => exact .of_completed (.stageSubcmd x) h (exec_stageSubcmd x s) rfl
  | stageRetry t => exact .of_completed (.stageRetry t) h (exec_stageRetry t s) rfl
  | sendMessage ft c r => exact .of_enqueueItem h (exec_sendMessage ft c r s) rfl rfl (.sendMessage ft c r)
  | sendMessageNa ft c => exact .of_enqueueItem h (exec_sendMessageNa ft c s) rfl rfl (.sendMessageNa ft c)
  | sendAnswer ft m => exact .of_sendAnswer h
  | noAnswer =>
    by_cases hout : s.eng.processing = false
    · exact .of_failed h (exec_noAnswer_outside hout) (if_pos hout) (by decide)
    · have hin : s.eng.processing = true := Bool.of_not_eq_false hout
      exact .of_completed (.noAnswer hin) h (exec_noAnswer_inside hin) (if_neg hout)
  | handlerReturn res =>
    by_cases hcallout : s.eng.callout = .none
    · exact .of_failed h (exec_handlerReturn_outside hcallout res) (if_pos hcallout) (by decide)
    · exact .of_completed (.handlerReturn res hcallout) h (exec_handlerReturn_inside hcallout res) (if_neg hcallout)

/-- Settles O51: a command that fails shows its error, and one that completes shows 0. -/
theorem commandErrorsByContext : Obligations.CommandErrorsByContext := by
  intro i s s' h
  have hstatus : s'.cmdStatus = commandError i s := by
    rcases exec_cases h with ⟨-, rfl⟩ | ⟨herror, t, -, rfl⟩
    · rfl
    · exact herror.symm
  dsimp only
  rw [hstatus]
  cases i <;> rfl

/-! ### What the commands leave unchanged -/

/-- Whatever completes, but for RESET, leaves WARN[6] alone. -/
theorem Completes.warn_cmdErr {i : Instr} {s t : State} (h : Completes s i t) (hi : i ≠ .reset) :
    t.warn.getLsbD 6 = s.warn.getLsbD 6 := by
  cases h with
  | reset => exact absurd rfl hi
  | loop _ hbody => exact (loopBody_loopFrame hbody).warnCmd
  | handlerReturn res =>
    obtain ⟨oq, eng, warn, stat, heq, -, hkept, -⟩ := calloutReturn_frame res s
    rw [heq]
    exact hkept
  | _ => rfl

/-- Settles O50: a failure is `cmdFail`, and no completion but RESET's touches WARN[6]. -/
theorem failedCommandHasNoOtherEffect : Obligations.FailedCommandHasNoOtherEffect := by
  intro i s s' h
  rcases exec_cases h with ⟨herror, rfl⟩ | ⟨-, t, ht, rfl⟩
  · exact ⟨fun _ => rfl, fun hok => absurd hok herror⟩
  · exact ⟨fun hfail => absurd rfl hfail, fun _ hi => ht.warn_cmdErr hi⟩

end Sys2Proof.Machine
end

section
/-! Which elements the commands write (10_state.md sections 2 to 5): the frame of the return from a callout, and the
frames of all commands together. -/

namespace Sys2Proof.Machine

theorem extractLsb'_or_of_disjoint {n lo len : Nat} {m : BitVec n} (h : m.extractLsb' lo len = 0) (a : BitVec n) :
    (a ||| m).extractLsb' lo len = a.extractLsb' lo len := by
  rw [BitVec.extractLsb'_or, h]
  exact BitVec.or_zero

theorem recordResult_warnLow (res : HandlerResult) (s : State) :
    (recordResult res s).warn.extractLsb' 0 4 = s.warn.extractLsb' 0 4 := by
  show (if res = .ok then s.warn else s.warn ||| warnHandlerErr).extractLsb' 0 4 = _
  split
  · rfl
  · exact extractLsb'_or_of_disjoint (by decide) _

/-- What the return from a held callout may change: OQ, HRESULT, three fields of ENG, NO_ANSWER and WARN[5:4]. -/
structure ReturnFrame (s t : State) : Prop where
  same : t = { s with oq := t.oq, hresult := t.hresult, warn := t.warn,
                      eng := { s.eng with state := t.eng.state, callout := t.eng.callout,
                                          processing := t.eng.processing },
                      stat := { s.stat with noAnswer := t.stat.noAnswer } }
  warnLow : t.warn.extractLsb' 0 4 = s.warn.extractLsb' 0 4
  warnKept : s.warn &&& t.warn = s.warn
  warnCmd : t.warn.getLsbD 6 = s.warn.getLsbD 6

theorem calloutReturn_returnFrame {s : State} (hcallout : s.eng.callout ≠ .none) (res : HandlerResult) :
    ReturnFrame s (calloutReturn res s) := by
  have hlow := recordResult_warnLow res s
  have hparts : calloutReturn res s = { s with
        oq := (calloutReturn res s).oq, hresult := (calloutReturn res s).hresult,
        warn := (calloutReturn res s).warn,
        eng := { s.eng with state := (calloutReturn res s).eng.state, callout := (calloutReturn res s).eng.callout,
                            processing := (calloutReturn res s).eng.processing },
        stat := { s.stat with noAnswer := (calloutReturn res s).stat.noAnswer } } ∧
      (calloutReturn res s).warn.extractLsb' 0 4 = s.warn.extractLsb' 0 4 := by
    cases hc : s.eng.callout with
    | none => exact absurd hc hcallout
    | message =>
      rw [calloutReturn_of_message hc]
      by_cases hsilent : (recordResult res s).eng.answerSent = false ∧ (recordResult res s).eng.noAnswer = false
      · rw [noAnswerCheck_of_silent hsilent.1 hsilent.2]
        exact ⟨rfl, (extractLsb'_or_of_disjoint (by decide) _).trans hlow⟩
      · rw [noAnswerCheck, if_neg hsilent]
        exact ⟨rfl, hlow⟩
    | answer =>
      rw [calloutReturn_of_answer hc]
      exact ⟨rfl, hlow⟩
    | timeout =>
      rw [calloutReturn_of_timeout hc]
      exact ⟨rfl, hlow⟩
  obtain ⟨oq, eng, warn, stat, heq, hkept, hcmd, -⟩ := calloutReturn_frame res s
  have hwarn : (calloutReturn res s).warn = warn := by rw [heq]
  exact ⟨hparts.1, hparts.2, hwarn ▸ hkept, hwarn ▸ hcmd⟩

/-- Settles O52: a failure writes WARN[6] only, LOOP and HANDLER_RETURN keep to their frames, and every other command
writes the elements of its rule. -/
theorem registersWrittenOnlyByTheirCommands : Obligations.RegistersWrittenOnlyByTheirCommands := by
  intro i s s' h hi
  rcases exec_cases h with ⟨herror, rfl⟩ | ⟨-, t, ht, rfl⟩
  · have hlow : (s.warn ||| warnCmdErr).extractLsb' 0 4 = s.warn.extractLsb' 0 4 :=
      extractLsb'_or_of_disjoint (by decide) _
    have hmid : (s.warn ||| warnCmdErr).extractLsb' 4 2 = s.warn.extractLsb' 4 2 :=
      extractLsb'_or_of_disjoint (by decide) _
    have hkept : (s.warn ||| warnCmdErr) &&& s.warn = s.warn := by rw [BitVec.and_comm, warn_or_kept]
    simp [herror, hlow, hmid, hkept]
  · cases ht with
    | reset => exact absurd rfl hi
    | loop _ hbody =>
      have hframe := loopBody_loopFrame hbody
      have hkept : t.warn &&& s.warn = s.warn := by rw [BitVec.and_comm, hframe.warnKept]
      have hmid := hframe.warnHandler
      have hcmd := hframe.warnCmd
      have hsame := hframe.same
      rw [hsame]
      simpa [hkept, hmid] using hcmd
    | handlerReturn res hcallout =>
      have hframe := calloutReturn_returnFrame hcallout res
      have hkept : (calloutReturn res s).warn &&& s.warn = s.warn := by rw [BitVec.and_comm, hframe.warnKept]
      have hlow := hframe.warnLow
      have hcmd := hframe.warnCmd
      have hsame := hframe.same
      rw [hsame]
      simpa [hkept, hlow] using hcmd
    | _ => simp

end Sys2Proof.Machine
end

section
/-! OQ and TX_LINE along a step (20_memory.md R53, 10_state.md R40, 44_sequencer.md R141, R142). -/

namespace Sys2Proof.Machine

/-! ### The steps of the agents -/

/-- A step that is no completed command: it leaves alone everything but the clock, the flags, the receive line and the
model's own records. -/
def AgentOnly (s s' : State) : Prop :=
  s' = { s with time := s'.time, cmdStatus := s'.cmdStatus, warn := s'.warn, ie := s'.ie, rxLine := s'.rxLine,
                pending := s'.pending, hostReads := s'.hostReads }

/-- A step is the write of a command word to CMD, which runs that command, or it touches no more than an agent can. -/
theorem step_cases {s s' : State} (h : step s = .next s') :
    AgentOnly s s' ∨ ∃ addr w rest i, s.pending = .hostWrite addr w :: rest ∧
      regOffset (windowOffset s.params addr) = 0x004 ∧ decode w = .ok i ∧
      exec i { s with pending := rest } = .next s' := by
  cases hpending : s.pending with
  | nil =>
    rw [step_of_idle hpending] at h
    cases h
    exact .inl rfl
  | cons e rest =>
    rw [step_of_pending hpending] at h
    cases e with
    | hostRead | rxArrive | tick =>
      cases h
      exact .inl rfl
    | hostWrite addr w =>
      have hwrite : memWrite (windowOffset s.params addr) w { s with pending := rest } = .next s' := h
      by_cases hcmd : regOffset (windowOffset s.params addr) = 0x004
      · rw [memWrite_of_cmd hcmd] at hwrite
        cases hdecode : decode w with
        | error e =>
          rw [execute_of_decode_error hdecode] at hwrite
          cases hwrite
          exact .inl rfl
        | ok i =>
          rw [execute_of_decode_ok hdecode] at hwrite
          exact .inr ⟨addr, w, rest, i, rfl, hcmd, hdecode, hwrite⟩
      by_cases hwarn : regOffset (windowOffset s.params addr) = 0x010
      · rw [memWrite_of_warn hwarn] at hwrite
        cases hwrite
        exact .inl rfl
      by_cases hie : regOffset (windowOffset s.params addr) = 0x014
      · rw [memWrite_of_ie hie] at hwrite
        cases hwrite
        exact .inl rfl
      · rw [memWrite_of_readOnly hcmd hwarn hie] at hwrite
        cases hwrite
        exact .inl rfl

/-! ### OQ -/

/-- What reading the line and scanning leave alone of what the state step uses. -/
theorem scanned_same {now : Word} {s t : State} (h : processData now (readData s) = .ok t) :
    t.oq = s.oq ∧ t.eng = s.eng ∧ t.txLine = s.txLine ∧ t.params = s.params := by
  obtain ⟨t', h', hsame, -, -⟩ := processData_frame now (readData s)
  obtain rfl : t' = t := Except.ok.inj (h'.symm.trans h)
  rw [readData_eq] at hsame
  rw [hsame]
  exact ⟨rfl, rfl, rfl, rfl⟩

theorem EngineCase.oq {now : Word} {s t : State} (h : EngineCase now s t) :
    t.oq = s.oq ∨ (∃ h, s.oq = h :: t.oq) ∨
      ∃ h rest, s.oq = h :: rest ∧ t.oq = { h with retries := h.retries - 1 } :: rest := by
  cases h with
  | dispatch _ hfifo =>
    rw [shed_of_append hfifo]
    exact .inl rfl
  | @send h rest _ hoq =>
    cases hreq : h.expectsAnswer with
    | true =>
      rw [sendHead_of_request now hoq hreq]
      exact .inr (.inr ⟨h, rest, hoq, rfl⟩)
    | false =>
      rw [sendHead_of_notification now hoq hreq]
      exact .inr (.inl ⟨h, hoq⟩)
  | giveUp _ hoq => exact .inr (.inl ⟨_, hoq⟩)
  | retry | answer | stay => exact .inl rfl

/-- Settles O23: SEND_MESSAGE and SEND_MESSAGE_NA append an item, LOOP and HANDLER_RETURN work on the head, and RESET
alone empties OQ. -/
theorem queueMovesInOrder : Obligations.QueueMovesInOrder := by
  intro s s' hstep
  rcases step_cases hstep with hagent | ⟨addr, w, rest, i, hpending, hcmd, hdecode, hexec⟩
  · rw [hagent]
    exact .inl rfl
  rcases exec_cases hexec with ⟨-, rfl⟩ | ⟨-, t, ht, rfl⟩
  · exact .inl rfl
  cases ht with
  | reset => exact .inr (.inr (.inr (.inr ⟨addr, w, rest, hpending, hcmd, hdecode, rfl⟩)))
  | loop _ hbody =>
    obtain ⟨s1, hscan, hengine⟩ := loopBody_cases hbody
    obtain ⟨hoq, -⟩ := scanned_same hscan
    rw [cmdOk_oq, ← show s1.oq = s.oq from hoq]
    rcases hengine.oq with hsame | hpopped | hretried
    · exact .inl hsame
    · exact .inr (.inr (.inl hpopped))
    · exact .inr (.inr (.inr (.inl hretried)))
  | sendMessage | sendMessageNa => exact .inr (.inl ⟨_, rfl⟩)
  | handlerReturn res =>
    obtain ⟨oq, eng, warn, stat, heq, -, -, hoq⟩ := calloutReturn_frame res { s with pending := rest }
    rw [heq]
    rcases hoq with rfl | rfl
    · exact .inl rfl
    · cases hold : s.oq with
      | nil => exact .inl rfl
      | cons h tail => exact .inr (.inr (.inl ⟨h, rfl⟩))
  | _ => exact .inl rfl

/-! ### TX_LINE -/

theorem sendData_txLine (ft : Byte) (d : List Byte) (c : Bool) (s : State) :
    ∃ out, (sendData ft d c s).2.txLine = s.txLine ++ out := by
  rw [sendData_snd]
  split
  · exact ⟨[], (List.append_nil _).symm⟩
  · exact ⟨_, rfl⟩

theorem sendHead_txLine (now : Word) {h : OutItem} {rest : List OutItem} {s : State} (hoq : s.oq = h :: rest) :
    (sendHead now h s).txLine = (sendData h.ftype h.data h.useCrc s).2.txLine := by
  cases hreq : h.expectsAnswer with
  | true => rw [sendHead_of_request now hoq hreq]
  | false => rw [sendHead_of_notification now hoq hreq]

/-- Outside a send the state step leaves TX_LINE alone, and a send happens in IDLE. -/
theorem EngineCase.txLine {now : Word} {s t : State} (h : EngineCase now s t) :
    t.txLine = s.txLine ∨ s.eng.state = .idle ∧ ∃ h rest, s.oq = h :: rest ∧ t = sendHead now h s := by
  cases h with
  | dispatch _ hfifo =>
    rw [shed_of_append hfifo]
    exact .inl rfl
  | send hidle hoq => exact .inr ⟨hidle, _, _, hoq, rfl⟩
  | giveUp | retry | answer | stay => exact .inl rfl

/-- Settles O24: LOOP and SEND_ANSWER append to TX_LINE, and no other step writes it. -/
theorem transmitLineOnlyGrows : Obligations.TransmitLineOnlyGrows := by
  intro s s' hstep
  have unchanged {t : State} (h : t.txLine = s.txLine) : ∃ out, t.txLine = s.txLine ++ out := ⟨[], by simp [h]⟩
  rcases step_cases hstep with hagent | ⟨addr, w, rest, i, -, -, -, hexec⟩
  · rw [hagent]
    exact unchanged rfl
  rcases exec_cases hexec with ⟨-, rfl⟩ | ⟨-, t, ht, rfl⟩
  · exact unchanged rfl
  cases ht with
  | loop _ hbody =>
    obtain ⟨s1, hscan, hengine⟩ := loopBody_cases hbody
    obtain ⟨-, -, htx, -⟩ := scanned_same hscan
    rw [cmdOk_txLine, ← show s1.txLine = s.txLine from htx]
    rcases hengine.txLine with hsame | ⟨-, h, later, hoq, rfl⟩
    · exact ⟨[], by simp [hsame]⟩
    · rw [sendHead_txLine _ hoq]
      exact sendData_txLine _ _ _ _
  | sendAnswer => exact ⟨_, rfl⟩
  | handlerReturn res =>
    obtain ⟨oq, eng, warn, stat, heq, -⟩ := calloutReturn_frame res { s with pending := rest }
    rw [heq]
    exact unchanged rfl
  | _ => exact unchanged rfl

/-! ### The outstanding request -/

/-- No return from a callout enters WAITING. -/
theorem calloutReturn_state {s : State} (hcallout : s.eng.callout ≠ .none) (hidle : s.eng.state = .idle)
    (res : HandlerResult) : (calloutReturn res s).eng.state = .idle := by
  cases hc : s.eng.callout with
  | none => exact absurd hc hcallout
  | message =>
    rw [calloutReturn_of_message hc]
    unfold noAnswerCheck
    split <;> exact hidle
  | answer => rw [calloutReturn_of_answer hc]
  | timeout => rw [calloutReturn_of_timeout hc]

/-- The state step enters WAITING by sending a request. -/
theorem EngineCase.enters_waiting {now : Word} {s t : State} (h : EngineCase now s t) (hidle : s.eng.state = .idle)
    (hwait : t.eng.state = .waiting) :
    ∃ h rest, s.oq = h :: rest ∧ h.expectsAnswer = true ∧ t = sendHead now h s := by
  have notWaiting {e : Engine} (he : e.state = .idle) (hw : e.state = .waiting) : False := by
    rw [he] at hw
    cases hw
  cases h with
  | dispatch _ hfifo =>
    rw [shed_of_append hfifo] at hwait
    exact (notWaiting hidle hwait).elim
  | @send h rest _ hoq =>
    cases hreq : h.expectsAnswer with
    | true => exact ⟨h, rest, hoq, hreq, rfl⟩
    | false =>
      rw [sendHead_of_notification now hoq hreq] at hwait
      exact (notWaiting hidle hwait).elim
  | giveUp hw | retry hw | answer hw => exact (notWaiting hidle hw).elim
  | stay => exact (notWaiting hidle hwait).elim

/-- Settles O45: LOOP alone sends a request, in IDLE; in WAITING it sends nothing, and no MESSAGE callout is held in
which SEND_ANSWER could. -/
theorem oneRequestAtATime : Obligations.OneRequestAtATime := by
  intro i s s' hinv hexec
  constructor
  · intro hidle hwait
    have impossible (hstate : s'.eng.state = .idle) : False := by
      rw [hstate] at hwait
      cases hwait
    rcases exec_cases hexec with ⟨-, rfl⟩ | ⟨-, t, ht, rfl⟩
    · exact (impossible hidle).elim
    cases ht with
    | loop _ hbody =>
      obtain ⟨s1, hscan, hengine⟩ := loopBody_cases hbody
      obtain ⟨hoq1, heng1, htx1, hparams1⟩ := scanned_same hscan
      obtain ⟨h, rest, hoq, hreq, rfl⟩ := hengine.enters_waiting (heng1 ▸ hidle) hwait
      have hhead : s.oq = h :: rest := hoq1 ▸ hoq
      have hfits : h.data.length ≤ maxDataSize s1.params :=
        hparams1 ▸ (hinv.oqItems h (hhead ▸ List.mem_cons_self)).data
      refine ⟨rfl, h, by rw [hhead]; rfl, hreq, ?_⟩
      rw [cmdOk_txLine, sendHead_txLine _ hoq, sendData_fits hfits, htx1]
    | handlerReturn res hcallout => exact (impossible (calloutReturn_state hcallout hidle res)).elim
    | reset => exact (impossible rfl).elim
    | _ => exact (impossible hidle).elim
  · intro hwait
    rcases exec_cases hexec with ⟨-, rfl⟩ | ⟨-, t, ht, rfl⟩
    · rfl
    cases ht with
    | loop _ hbody =>
      obtain ⟨s1, hscan, hengine⟩ := loopBody_cases hbody
      obtain ⟨-, heng1, htx1, -⟩ := scanned_same hscan
      rcases hengine.txLine with hsame | ⟨hidle, -⟩
      · exact hsame.trans htx1
      · rw [heng1, hwait] at hidle
        cases hidle
    | sendAnswer _ _ hin =>
      have hidle := hinv.message (hinv.processing.mp hin)
      rw [hwait] at hidle
      cases hidle
    | handlerReturn res =>
      obtain ⟨oq, eng, warn, stat, heq, -⟩ := calloutReturn_frame res s
      rw [heq]
      rfl
    | _ => rfl

end Sys2Proof.Machine
end

section
/-! The invariant at reset (70_reset_and_hazards.md R169, R171) and under the parts of a step: what an agent does, what
a command writes, and how LOOP and the return from a callout move the outstanding request. -/

namespace Sys2Proof.Machine

theorem byteAt_replicate_zero (n k : Nat) : byteAt (List.replicate n 0) k = 0 := by
  rw [byteAt, List.getD_eq_getElem?_getD, List.getElem?_replicate]
  split <;> rfl

/-- The power-on state of legal parameters meets the invariant: every queue is empty and no callout is held. -/
theorem powerOn_inv {p : Params} (hp : p.Legal) : MachineInv (State.powerOn p) where
  params := hp
  rbBound := Nat.zero_le _
  fifoBound := Nat.zero_le _
  fifoData := fun _ h => nomatch h
  oqBound := Nat.zero_le _
  oqItems := fun _ h => nomatch h
  oqTail := fun _ h => nomatch h
  oqHead := fun _ _ h => nomatch h
  staging := Nat.zero_le _
  request := fun h => nomatch h.1
  message := fun h => nomatch h
  reply := fun h => h.elim nofun nofun
  processing := ⟨nofun, nofun⟩
  event := fun h => absurd rfl h
  eventData := ⟨List.length_replicate, Nat.zero_le _, fun k _ => byteAt_replicate_zero 256 k⟩
  scanner := scannerOk_idle _ _
  frameErr := rfl

/-- Settles O58: the parameters after reset are legal whatever the OPEN ones are. -/
theorem resetMeetsInvariant : Obligations.ResetMeetsInvariant := powerOn_inv config_params_legal

/-! ### The parts of a step that move no request -/

/-- A change of the clock, the flags, the counters, the lines, the accumulators or the model's own records. -/
def UnseenChange (s s' : State) : Prop :=
  s' = { s with time := s'.time, crcAcc := s'.crcAcc, chkAcc := s'.chkAcc, cmdStatus := s'.cmdStatus,
                warn := s'.warn, ie := s'.ie, hresult := s'.hresult, stat := s'.stat, rxLine := s'.rxLine,
                txLine := s'.txLine, pending := s'.pending, hostReads := s'.hostReads }

theorem AgentOnly.unseen {s s' : State} (h : AgentOnly s s') : UnseenChange s s' := by
  unfold AgentOnly at h
  unfold UnseenChange
  rw [h]

/-- The invariant speaks of none of these. -/
theorem MachineInv.of_unseen {s s' : State} (h : MachineInv s) (hs : UnseenChange s s') : MachineInv s' := by
  unfold UnseenChange at hs
  rw [hs]
  exact { h with }

theorem sendData_unseen (ft : Byte) (d : List Byte) (c : Bool) (s : State) :
    UnseenChange s (sendData ft d c s).2 := by
  rw [sendData_snd]
  split <;> rfl

theorem noAnswerCheck_unseen (s : State) : UnseenChange s (noAnswerCheck s) := by
  unfold noAnswerCheck
  split <;> rfl

theorem recordResult_unseen (res : HandlerResult) (s : State) : UnseenChange s (recordResult res s) := rfl

theorem UnseenChange.eng {s s' : State} (h : UnseenChange s s') : s'.eng = s.eng := by
  unfold UnseenChange at h
  rw [h]

theorem UnseenChange.oq {s s' : State} (h : UnseenChange s s') : s'.oq = s.oq := by
  unfold UnseenChange at h
  rw [h]

/-! ### The outgoing queue -/

section
variable {α : Type} {l : List α} {a b : α}

theorem mem_head?_or_eq_of_mem_head?_append (h : b ∈ (l ++ [a]).head?) : b ∈ l.head? ∨ b = a := by
  cases l with
  | nil => exact .inr (Option.some.inj h).symm
  | cons x l => exact .inl h

theorem mem_head?_append_of_mem_head? (h : b ∈ l.head?) : b ∈ (l ++ [a]).head? := by
  cases l with
  | nil => cases h
  | cons x l => exact h

theorem mem_drop_one_or_eq_of_mem_drop_one_append (h : b ∈ (l ++ [a]).drop 1) : b ∈ l.drop 1 ∨ b = a := by
  cases l with
  | nil => cases h
  | cons x l => exact (List.mem_append.mp h).imp_right List.mem_singleton.mp

end

/-- An item as SEND_MESSAGE and SEND_MESSAGE_NA make it joins the back of OQ. -/
theorem MachineInv.enqueue {s : State} (h : MachineInv s) {item : OutItem} (hok : item.Ok s.params)
    (hretries : item.retries ≠ 0) (hroom : s.oq.length ≠ s.params.oqCap) :
    MachineInv { s with oq := s.oq ++ [item] } :=
  { h with
    oqBound := by
      have hold := h.oqBound
      rw [List.length_append, List.length_singleton]
      exact Nat.lt_of_le_of_ne hold hroom
    oqItems := by
      intro i hi
      rcases List.mem_append.mp hi with hold | hnew
      · exact h.oqItems i hold
      · rwa [List.mem_singleton.mp hnew]
    oqTail := by
      intro i hi
      rcases mem_drop_one_or_eq_of_mem_drop_one_append hi with hold | rfl
      · exact h.oqTail i hold
      · exact hretries
    oqHead := by
      intro hout i hi
      rcases mem_head?_or_eq_of_mem_head?_append hi with hold | rfl
      · exact h.oqHead hout i hold
      · exact hretries
    request := by
      intro hout
      obtain ⟨first, hfirst, hanswer⟩ := h.request hout
      exact ⟨first, mem_head?_append_of_mem_head? hfirst, hanswer⟩ }

/-- `min(r, MAX_RETRIES) + 1` fits in its byte, so it is neither 0 nor too large (R133). -/
theorem retryCount_toNat {p : Params} (hp : p.Legal) (r : Byte) :
    (retryCount p r).toNat = min r.toNat p.maxRetries + 1 := by
  obtain ⟨-, -, -, -, -, -, -, hmax, -⟩ := hp
  rw [retryCount, BitVec.toNat_ofNat]
  omega

theorem retryCount_ne_zero {p : Params} (hp : p.Legal) (r : Byte) : retryCount p r ≠ 0 := by
  intro hzero
  have hcount := retryCount_toNat hp r
  rw [hzero] at hcount
  cases hcount

/-! ### The event of a callout -/

theorem MachineInv.maxDataSize_lt {s : State} (h : MachineInv s) : maxDataSize s.params < 256 := by
  obtain ⟨-, hmax, -⟩ := h.params
  unfold maxDataSize
  omega

/-- Zeros past the end of a byte sequence read as nothing at all. -/
theorem byteAt_append_zeros (d : List Byte) (n k : Nat) : byteAt (d ++ List.replicate n 0) k = byteAt d k := by
  by_cases h : k < d.length
  · exact byteAt_append h _
  · have hpast : d.length ≤ k := Nat.not_lt.mp h
    have hzero := byteAt_replicate_zero n (k - d.length)
    unfold byteAt at hzero ⊢
    rw [List.getD_append_right _ _ _ _ hpast, hzero, List.getD_eq_default _ _ hpast]

/-- EVT of a posted callout: 256 bytes, and 0 past the data (R157). -/
theorem postCallout_eventData {kind : Callout} {rt ft : Byte} {c : Bool} {d : List Byte} {t : Word} {s : State}
    (hd : d.length < 256) :
    (postCallout kind rt ft c d t s).evt.data.length = 256 ∧
    (postCallout kind rt ft c d t s).evt.len.toNat = d.length ∧
    ∀ k, d.length ≤ k → byteAt (postCallout kind rt ft c d t s).evt.data k = 0 := by
  simp only [postCallout_evt]
  refine ⟨?_, ?_, fun k hk => ?_⟩
  · rw [List.length_append, List.length_replicate]
    omega
  · rw [BitVec.toNat_ofNat]
    omega
  · rw [byteAt_append_zeros]
    exact List.getD_eq_default _ _ hk

/-! ### The outstanding request -/

theorem MachineInv.processing_eq_false {s : State} (h : MachineInv s) (hcallout : s.eng.callout ≠ .message) :
    s.eng.processing = false :=
  Bool.eq_false_iff.mpr fun hin => hcallout (h.processing.mp hin)

/-- Going to IDLE with no callout held, OQ as it was with a send left for its head, or without its head. -/
theorem MachineInv.to_idle {s : State} (h : MachineInv s) {oq : List OutItem} {e : Engine} (hidle : e.state = .idle)
    (hcallout : e.callout = .none) (hprocessing : e.processing = false)
    (hoq : (oq = s.oq ∧ ∀ i ∈ oq.head?, i.retries ≠ 0) ∨ oq = s.oq.drop 1) :
    MachineInv { s with oq := oq, eng := e } := by
  have hsub : oq.Sublist s.oq := by
    rcases hoq with ⟨rfl, -⟩ | rfl
    · exact List.Sublist.refl _
    · exact List.drop_sublist _ _
  have htail : ∀ i ∈ oq.drop 1, i.retries ≠ 0 := by
    rcases hoq with ⟨rfl, -⟩ | rfl
    · exact h.oqTail
    · exact fun i hi => h.oqTail i (List.mem_of_mem_drop hi)
  have hhead : ∀ i ∈ oq.head?, i.retries ≠ 0 := by
    rcases hoq with ⟨-, hhead⟩ | rfl
    · exact hhead
    · exact fun i hi => h.oqTail i (List.mem_of_mem_head? hi)
  exact { h with
    oqBound := hsub.length_le.trans h.oqBound
    oqItems := fun i hi => h.oqItems i (hsub.mem hi)
    oqTail := htail
    oqHead := fun _ => hhead
    request := fun hout => by cases hidle.symm.trans hout.1
    message := fun _ => hidle
    reply := fun hheld => by rcases hheld with hheld | hheld <;> cases hcallout.symm.trans hheld
    processing := by simp [hprocessing, hcallout]
    event := fun hheld => absurd hcallout hheld }

/-- Sending the head as a request: it has a retry less and is outstanding. -/
theorem MachineInv.to_waiting {s : State} (h : MachineInv s) {first : OutItem} {rest : List OutItem}
    (hoq : s.oq = first :: rest) (hreq : first.expectsAnswer = true) (hleft : first.retries ≠ 0) {e : Engine}
    (hwait : e.state = .waiting) (hcallout : e.callout = .none) (hprocessing : e.processing = false) :
    MachineInv { s with oq := { first with retries := first.retries - 1 } :: rest, eng := e } := by
  have hitems : ∀ i ∈ first :: rest, i.Ok s.params := hoq ▸ h.oqItems
  have hfirst : first.Ok s.params := hitems first List.mem_cons_self
  have hretries : (first.retries - 1).toNat ≤ s.params.maxRetries + 1 := by
    have hold := hfirst.retries
    bv_omega
  have hsent : OutItem.Ok s.params { first with retries := first.retries - 1 } :=
    ⟨hfirst.data, hretries, fun hnote => by cases hreq.symm.trans hnote⟩
  have hout : Outstanding { s with oq := { first with retries := first.retries - 1 } :: rest, eng := e } :=
    ⟨hwait, by rw [show e.callout = .none from hcallout]; nofun⟩
  exact { h with
    oqBound := by simpa [hoq] using h.oqBound
    oqItems := fun i hi => by
      rcases List.mem_cons.mp hi with rfl | hrest
      · exact hsent
      · exact hitems i (List.mem_cons_of_mem _ hrest)
    oqTail := fun i hi => h.oqTail i (by rw [hoq]; exact hi)
    oqHead := fun hnot => absurd hout hnot
    request := fun _ => ⟨_, rfl, hreq⟩
    message := fun hheld => by cases hcallout.symm.trans hheld
    reply := fun _ => hwait
    processing := by simp [hprocessing, hcallout]
    event := fun hheld => absurd hcallout hheld }

/-! ### LOOP -/

/-- Reading the line and scanning keep the invariant: they touch only the receive side. -/
theorem MachineInv.scanned {now : Word} {s t : State} (h : MachineInv s)
    (hscan : processData now (readData s) = .ok t) : MachineInv t := by
  have hinv : ScanInv t := h.scanInv.readData.processData hscan
  obtain ⟨t', hscan', hsame, -, -⟩ := processData_frame now (readData s)
  obtain rfl : t' = t := Except.ok.inj (hscan'.symm.trans hscan)
  rw [readData_eq] at hsame
  rw [hsame] at hinv ⊢
  exact { h with
    rbBound := hinv.rbBound
    fifoBound := hinv.fifoBound
    fifoData := hinv.fifoData
    frameErr := hinv.frameErr
    scanner := hinv.scanner }

theorem not_outstanding_of_idle {s : State} (h : s.eng.state = .idle) : ¬ Outstanding s := by
  rintro ⟨hwait, -⟩
  cases h.symm.trans hwait

/-- A frame of FIFO is dispatched as a MESSAGE callout. -/
theorem MachineInv.dispatch {s : State} (h : MachineInv s) (hidle : s.eng.state = .idle) {older : List RxFrame}
    {f : RxFrame} (hfifo : s.fifo = older ++ [f]) : MachineInv (dispatchMessage f { shed s with fifo := [] }) := by
  have hdata : f.data.length ≤ maxDataSize s.params := h.fifoData f (by simp [hfifo])
  have hevent := postCallout_eventData (kind := .message) (rt := 0) (ft := f.ftype) (c := f.useCrc) (t := f.arrival)
    (s := s) (hdata.trans_lt h.maxDataSize_lt)
  obtain ⟨hlength, hlen, hpad⟩ := hevent
  rw [shed_of_append hfifo]
  exact { h with
    fifoBound := Nat.zero_le _
    fifoData := fun _ hmem => nomatch hmem
    oqHead := fun _ => h.oqHead (not_outstanding_of_idle hidle)
    request := fun hout => absurd hout (not_outstanding_of_idle hidle)
    message := fun _ => hidle
    reply := fun hheld => hheld.elim nofun nofun
    processing := ⟨fun _ => rfl, fun _ => rfl⟩
    event := fun _ => rfl
    eventData := ⟨hlength, hlen.trans_le hdata, fun k hk => hpad k (hlen ▸ hk)⟩ }

/-- A request without a retry left leaves OQ and is reported as a TIMEOUT callout. -/
theorem MachineInv.giveUp {s : State} (h : MachineInv s) (hcallout : s.eng.callout = .none)
    (hwait : s.eng.state = .waiting) {first : OutItem} {rest : List OutItem} (hoq : s.oq = first :: rest)
    (now : Word) :
    MachineInv (postCallout .timeout first.ftype 0 first.useCrc [] now (addTimeout { s with oq := rest })) := by
  have hprocessing : s.eng.processing = false := h.processing_eq_false (by rw [hcallout]; nofun)
  have hrest : rest = s.oq.drop 1 := by rw [hoq]; rfl
  obtain ⟨hlength, hlen, hpad⟩ := postCallout_eventData (kind := .timeout) (rt := first.ftype) (ft := 0)
    (c := first.useCrc) (d := []) (t := now) (s := s) (by decide)
  rw [hrest]
  exact { h with
    oqBound := (List.drop_sublist _ _).length_le.trans h.oqBound
    oqItems := fun i hi => h.oqItems i (List.mem_of_mem_drop hi)
    oqTail := fun i hi => h.oqTail i (List.mem_of_mem_drop hi)
    oqHead := fun _ i hi => h.oqTail i (List.mem_of_mem_head? hi)
    request := fun hout => absurd rfl hout.2
    message := fun hheld => nomatch hheld
    reply := fun _ => hwait
    processing := iff_of_false (fun hin => Bool.false_ne_true (hprocessing.symm.trans hin)) nofun
    event := fun _ => rfl
    eventData := ⟨hlength, hlen.trans_le (Nat.zero_le _), fun k hk => hpad k (hlen ▸ hk)⟩ }

/-- A frame of FIFO is the answer to the outstanding request. -/
theorem MachineInv.answer {s : State} (h : MachineInv s) (hcallout : s.eng.callout = .none)
    (hwait : s.eng.state = .waiting) {f : RxFrame} {later : List RxFrame} (hfifo : s.fifo = f :: later) (rt : Byte) :
    MachineInv (postCallout .answer rt f.ftype f.useCrc f.data f.arrival { s with fifo := later }) := by
  have hprocessing : s.eng.processing = false := h.processing_eq_false (by rw [hcallout]; nofun)
  have hout : Outstanding s := ⟨hwait, by rw [hcallout]; nofun⟩
  have hdata : f.data.length ≤ maxDataSize s.params := h.fifoData f (by simp [hfifo])
  have hlater : later.Sublist s.fifo := hfifo ▸ List.sublist_cons_self f later
  obtain ⟨hlength, hlen, hpad⟩ := postCallout_eventData (kind := .answer) (rt := rt) (ft := f.ftype) (c := f.useCrc)
    (t := f.arrival) (s := s) (hdata.trans_lt h.maxDataSize_lt)
  exact { h with
    fifoBound := hlater.length_le.trans h.fifoBound
    fifoData := fun g hg => h.fifoData g (hlater.mem hg)
    oqHead := fun hnot => absurd ⟨hwait, nofun⟩ hnot
    request := fun _ => h.request hout
    message := fun hheld => nomatch hheld
    reply := fun _ => hwait
    processing := iff_of_false (fun hin => Bool.false_ne_true (hprocessing.symm.trans hin)) nofun
    event := fun _ => rfl
    eventData := ⟨hlength, hlen.trans_le hdata, fun k hk => hpad k (hlen ▸ hk)⟩ }

/-- The head of OQ is sent, and stays as the outstanding request or leaves as a notification. -/
theorem MachineInv.send {s : State} (h : MachineInv s) (hcallout : s.eng.callout = .none)
    (hidle : s.eng.state = .idle) {first : OutItem} {rest : List OutItem} (hoq : s.oq = first :: rest) (now : Word) :
    MachineInv (sendHead now first s) := by
  have hsent := sendData_unseen first.ftype first.data first.useCrc s
  have hinv := h.of_unseen hsent
  have hprocessing : s.eng.processing = false := h.processing_eq_false (by rw [hcallout]; nofun)
  have hleft : first.retries ≠ 0 := h.oqHead (not_outstanding_of_idle hidle) first (by rw [hoq]; rfl)
  cases hreq : first.expectsAnswer with
  | true =>
    rw [sendHead_of_request now hoq hreq]
    exact hinv.to_waiting (hsent.oq.trans hoq) hreq hleft rfl hcallout hprocessing
  | false =>
    rw [sendHead_of_notification now hoq hreq]
    exact hinv.to_idle hidle hcallout hprocessing (.inr (by rw [hsent.oq, hoq]; rfl))

/-- LOOP's state step keeps the invariant. -/
theorem MachineInv.engineCase {now : Word} {s t : State} (h : MachineInv s) (hcallout : s.eng.callout = .none)
    (hcase : EngineCase now s t) : MachineInv t := by
  cases hcase with
  | dispatch hidle hfifo => exact h.dispatch hidle hfifo
  | send hidle hoq => exact h.send hcallout hidle hoq now
  | giveUp hwait hoq => exact h.giveUp hcallout hwait hoq now
  | retry _ hoq hleft =>
    have hprocessing : s.eng.processing = false := h.processing_eq_false (by rw [hcallout]; nofun)
    refine h.to_idle rfl hcallout hprocessing (.inl ⟨rfl, fun i hi => ?_⟩)
    rw [hoq] at hi
    cases hi
    exact hleft
  | answer hwait hfifo => exact h.answer hcallout hwait hfifo _
  | stay => exact h

/-! ### Commands -/

/-- The return from a callout ends in IDLE with no callout held, and after an answer without the request. -/
theorem MachineInv.calloutReturn {s : State} (h : MachineInv s) (hcallout : s.eng.callout ≠ .none)
    (res : HandlerResult) : MachineInv (calloutReturn res s) := by
  cases hc : s.eng.callout with
  | none => exact absurd hc hcallout
  | message =>
    rw [calloutReturn_of_message hc]
    have hidle : s.eng.state = .idle := h.message hc
    have hcheck := noAnswerCheck_unseen (recordResult res s)
    have hinv := (h.of_unseen (recordResult_unseen res s)).of_unseen hcheck
    have hstate : (noAnswerCheck (recordResult res s)).eng.state = .idle := by rw [hcheck.eng]; exact hidle
    exact hinv.to_idle (oq := (noAnswerCheck (recordResult res s)).oq) hstate rfl rfl
      (.inl ⟨rfl, hinv.oqHead (not_outstanding_of_idle hstate)⟩)
  | answer =>
    rw [calloutReturn_of_answer hc]
    have hprocessing : s.eng.processing = false := h.processing_eq_false (by rw [hc]; nofun)
    exact (h.of_unseen (recordResult_unseen res s)).to_idle rfl rfl hprocessing (.inr rfl)
  | timeout =>
    rw [calloutReturn_of_timeout hc]
    have hprocessing : s.eng.processing = false := h.processing_eq_false (by rw [hc]; nofun)
    exact (h.of_unseen (recordResult_unseen res s)).to_idle (oq := s.oq) rfl rfl hprocessing
      (.inl ⟨rfl, h.oqHead fun hout => hout.2 hc⟩)

/-- A command that completes keeps the invariant. -/
theorem MachineInv.completes {i : Instr} {s t : State} (h : MachineInv s) (hcase : Completes s i t) :
    MachineInv t := by
  cases hcase with
  | nop => exact h
  | reset => exact (powerOn_inv h.params).of_unseen rfl
  | loop hcallout hbody =>
    obtain ⟨s1, hscan, hengine⟩ := loopBody_cases hbody
    obtain ⟨-, heng, -⟩ := scanned_same hscan
    exact (h.scanned hscan).engineCase (heng ▸ hcallout) hengine
  | crcInit | crcFeed | chkInit | chkFeed => exact h.of_unseen rfl
  | stageClear => exact { h with staging := Nat.zero_le _ }
  | stagePush b hroom =>
    have hstaged : (s.stg.data ++ [b]).length ≤ maxDataSize s.params := by
      rw [List.length_append]
      exact Nat.lt_of_le_of_ne h.staging hroom
    exact { h with staging := hstaged }
  | stageSubcmd | stageRetry => exact { h with }
  | sendMessage ft c r hfits hroom =>
    have hretries := retryCount_toNat h.params r
    exact h.enqueue ⟨hfits, by dsimp only; omega, fun hnote => nomatch hnote⟩ (retryCount_ne_zero h.params r) hroom
  | sendMessageNa ft c hfits hroom =>
    exact h.enqueue ⟨hfits, Nat.le_add_left 1 _, fun _ => ⟨rfl, rfl⟩⟩ (show (1 : Byte) ≠ 0 by decide) hroom
  | sendAnswer | noAnswer => exact { h with }
  | handlerReturn res hcallout => exact h.calloutReturn hcallout res

/-- Settles O59: an agent's step touches nothing that the invariant speaks of, a failing command neither, and a command
that completes keeps it. -/
theorem stepKeepsInvariant : Obligations.StepKeepsInvariant := by
  intro s s' hinv hstep
  rcases step_cases hstep with hagent | ⟨addr, w, rest, i, -, -, -, hexec⟩
  · exact hinv.of_unseen hagent.unseen
  have htaken : MachineInv { s with pending := rest } := hinv.of_unseen rfl
  rcases exec_cases hexec with ⟨-, rfl⟩ | ⟨-, t, hcase, rfl⟩
  · exact htaken.of_unseen rfl
  · exact (htaken.completes hcase).of_unseen rfl

/-! ### No stop -/

/-- From an invariant state every command answers a next state: LOOP in WAITING finds the outstanding request. -/
theorem MachineInv.exec_next {s : State} (h : MachineInv s) (i : Instr) : ∃ s', exec i s = .next s' := by
  cases i with
  | loop =>
    by_cases hcallout : s.eng.callout = .none
    · have hrequest : s.eng.state = .waiting → s.oq ≠ [] := by
        intro hwait hnil
        obtain ⟨first, hfirst, -⟩ := h.request ⟨hwait, by rw [hcallout]; nofun⟩
        rw [hnil] at hfirst
        cases hfirst
      obtain ⟨t, hnext, -⟩ := loopCompletes.2 s hcallout hrequest
      exact ⟨t, hnext⟩
    · exact ⟨_, if_pos hcallout⟩
  | stagePush b =>
    by_cases hfull : s.stg.data.length = maxDataSize s.params
    · exact ⟨_, exec_stagePush_full hfull b⟩
    · exact ⟨_, exec_stagePush_room hfull b⟩
  | sendAnswer ft m =>
    show ∃ s', execSendAnswer ft m s = .next s'
    unfold execSendAnswer
    split
    · exact ⟨_, rfl⟩
    split
    · exact ⟨_, rfl⟩
    split <;> exact ⟨_, rfl⟩
  | noAnswer =>
    show ∃ s', execNoAnswer s = .next s'
    unfold execNoAnswer
    split <;> exact ⟨_, rfl⟩
  | handlerReturn res =>
    show ∃ s', execHandlerReturn res s = .next s'
    unfold execHandlerReturn
    split <;> exact ⟨_, rfl⟩
  | _ => exact ⟨_, rfl⟩

/-- Settles O60: of the agents' steps only a command could stop, and none does. -/
theorem invariantStatesNeverStop : Obligations.InvariantStatesNeverStop := by
  intro s h
  unfold SafeStep
  cases hpending : s.pending with
  | nil => exact ⟨_, step_of_idle hpending⟩
  | cons e rest =>
    rw [step_of_pending hpending]
    have htaken : MachineInv { s with pending := rest } := h.of_unseen rfl
    cases e with
    | hostRead | rxArrive | tick => exact ⟨_, rfl⟩
    | hostWrite addr w =>
      show ∃ s', memWrite _ w { s with pending := rest } = .next s'
      unfold memWrite
      split
      · cases hdecode : decode w with
        | error e => exact ⟨_, execute_of_decode_error hdecode _⟩
        | ok i =>
          rw [execute_of_decode_ok hdecode]
          exact htaken.exec_next i
      all_goals exact ⟨_, rfl⟩

/-! ### Reading the event back -/

/-- Settles O53: the registers of EVT by their fields, and the data byte by byte with the zeros that pad them. -/
theorem calloutEventReadsBack : Obligations.CalloutEventReadsBack := by
  intro kind rt ft c d t s hd s'
  obtain ⟨hcallout, -, -⟩ := regState_fields s'
  have hlen : (BitVec.ofNat 8 d.length).setWidth 32 = BitVec.ofNat 32 d.length := by
    refine BitVec.eq_of_toNat_eq ?_
    simp only [BitVec.toNat_setWidth, BitVec.toNat_ofNat]
    omega
  refine ⟨postCallout_frame kind rt ft c d t s, fieldAt_zero (calloutBits kind), fieldAt_zero _, fieldAt_zero _,
    fieldAt_zero _, (fieldAt_zero _).trans hlen, rfl, hcallout, fun k j hk hj => ?_⟩
  rw [memRead_evtData hk, regEvtData_byte hj]
  exact byteAt_append_zeros d _ _

end Sys2Proof.Machine
end

section
/-! The round trip of the codec (42_frame_codec.md R113): the parser reads back the frame that the encoder builds, and
the scanner hands it every logical byte of that frame in order. -/

namespace Sys2Proof.Machine

/-! ### The parser on an encoded frame -/

/-- The header of a frame, as the parser reads it back. -/
def frameHeader (ft : Byte) (n : Nat) (c : Bool) : Header :=
  { ftype := ft, useCrc := c, dataLen := BitVec.ofNat 8 n }

theorem frameHeader_dataLen_toNat {p : Params} (hp : p.Legal) {n : Nat} (hn : n ≤ maxDataSize p) (ft : Byte)
    (c : Bool) : (frameHeader ft n c).dataLen.toNat = n := by
  obtain ⟨-, hmax⟩ := sizeByte_toNat hp hn
  show (BitVec.ofNat 8 n).toNat = n
  rw [BitVec.toNat_ofNat]
  omega

theorem byteAt_of_getElem? {a : List Byte} {k : Nat} {b : Byte} (h : a[k]? = some b) : byteAt a k = b := by
  simp [byteAt, h]

theorem logicalFrame_take_ten (ft : Byte) (d : List Byte) (c : Bool) :
    (logicalFrame ft d c).take 10 = headerBytes d.length c ft := by
  rw [logicalFrame_eq_append, ← headerBytes_length d.length c ft, List.take_left]

theorem logicalFrame_take_two (ft : Byte) (d : List Byte) (c : Bool) : (logicalFrame ft d c).take 2 = [sep, sep] := by
  rw [logicalFrame_eq_append]
  rfl

/-- R109 on the ten header bytes of a frame of legal length. -/
theorem parseHeader_logicalFrame {p : Params} (hp : p.Legal) {d : List Byte} (hd : d.length ≤ maxDataSize p)
    (ft : Byte) (c : Bool) :
    parseHeader p ((logicalFrame ft d c).take 10) .empty = .ok (frameHeader ft d.length c) := by
  obtain ⟨hsize, -⟩ := sizeByte_toNat hp hd
  obtain ⟨hmin, -⟩ := hp
  have hmax : 8 + d.length ≤ p.maxFrameSize := by
    unfold maxDataSize at hd
    omega
  have header {k : Nat} (hk : k < 10) : byteAt (headerBytes d.length c ft) k = headerByte k d.length c ft :=
    byteAt_of_getElem? (headerBytes_getElem? hk ..)
  have hdataLen : (BitVec.ofNat 8 (8 + d.length) : Byte) - 8 = BitVec.ofNat 8 d.length := by
    rw [byte_sub_eight (by omega), hsize, Nat.add_sub_cancel_left]
  have hflag : (if c then crcFlag else 0).getLsbD 6 = c := by cases c <;> rfl
  rw [logicalFrame_take_ten, parseHeader, if_neg (by simp), if_neg (by simp),
    if_neg (by simp [header, headerByte])]
  simp only [header, Nat.reduceLT, headerByte, hsize, hdataLen, hflag]
  rw [if_neg (by omega), if_neg (by omega)]
  rfl

theorem half_eq_bytes (x : Half) : x = x.extractLsb' 8 8 ++ x.extractLsb' 0 8 := by
  rw [half_eq_append_iff, half_highByte_eq_ofNat_div, half_lowByte_eq_ofNat_mod, BitVec.toNat_ofNat, BitVec.toNat_ofNat]
  have hx := x.isLt
  omega

/-- R110 on a whole frame of legal length, with the escapes of its covered range counted. -/
theorem parseBody_logicalFrame {p : Params} (hp : p.Legal) {d : List Byte} (hd : d.length ≤ maxDataSize p)
    (ft : Byte) (c : Bool) :
    parseBody (logicalFrame ft d c) (frameHeader ft d.length c)
        (BitVec.ofNat 8 ((coveredRange ft d c).count sep)) .headerOnly =
      .ok { ftype := ft, useCrc := c, data := d, status := .complete } := by
  have hn := frameHeader_dataLen_toNat hp hd ft c
  have trailer (k : Nat) := logicalFrame_getElem?_trailer k ft d c
  have hlen : ¬ (logicalFrame ft d c).length < 10 + d.length + trailerLen c := by
    rw [logicalFrame_length]
    exact Nat.lt_irrefl _
  have hcrc : ¬ (c = true ∧ crc16 (coveredRange ft d c) 0 ≠
      byteAt (logicalFrame ft d c) (11 + d.length) ++ byteAt (logicalFrame ft d c) (12 + d.length)) := by
    rintro ⟨rfl, hne⟩
    have hhigh := byteAt_of_getElem? (trailer 1)
    have hlow := byteAt_of_getElem? (trailer 2)
    rw [show 10 + d.length + 1 = 11 + d.length by omega] at hhigh
    rw [show 10 + d.length + 2 = 12 + d.length by omega] at hlow
    rw [hhigh, hlow] at hne
    exact hne (half_eq_bytes _)
  have hsum : byteAt (logicalFrame ft d c) (10 + d.length) = frameChecksum (coveredRange ft d c) :=
    byteAt_of_getElem? (trailer 0)
  have hdata : ((logicalFrame ft d c).take (10 + d.length)).drop 10 = d := by
    have hpre : (headerBytes d.length c ft ++ d).length = 10 + d.length := by simp
    rw [logicalFrame_eq_append, ← List.append_assoc, ← hpre, List.take_left, ← headerBytes_length d.length c ft,
      List.drop_left]
  have hcovered := logicalFrame_covered ft d c
  have huseCrc : (frameHeader ft d.length c).useCrc = c := rfl
  unfold parseBody
  dsimp only
  rw [hn, huseCrc, coveredOf, hcovered, hsum, hdata, if_neg (by simp), if_neg hlen, if_neg hcrc,
    if_neg fun hne => hne rfl]
  rfl

/-! ### The scanner on an encoded frame -/

/-- A logical byte that stands stuffed at the front of the unconsumed bytes is the next one (R120). -/
theorem nextLogical_of_stuff {s : State} {b : Byte} {rest : List Byte}
    (h : s.rb.drop s.scn.consumed = stuff b ++ rest) : nextLogical s = .ok (.byte b (b == sep)) := by
  have front (k : Nat) : s.rb[s.scn.consumed + k]? = (stuff b ++ rest)[k]? := by
    rw [← h, List.getElem?_drop]
  have hfirst := front 0
  have hsecond := front 1
  by_cases hb : b = sep
  · subst hb
    rw [nextLogical_of_pair hfirst hsecond]
    rfl
  · rw [stuff, if_neg hb] at hfirst
    rw [nextLogical_of_plain hfirst hb, beq_eq_false_iff_ne.mpr hb]

/-- The physical form of the first `k` logical bytes is the front of the physical form. -/
theorem physical_eq_append {l : List Byte} {k : Nat} (hk : 2 ≤ (l.take k).length) :
    physical l = physical (l.take k) ++ (l.drop k).flatMap stuff := by
  have hsplit : l.drop 2 = (l.take k).drop 2 ++ l.drop k := by
    rw [← List.drop_append_of_le_length hk, List.take_append_drop]
  rw [physical, physical, hsplit, List.flatMap_append, List.append_assoc]

section
variable {now : Word} {ft : Byte} {d : List Byte} {c : Bool} {s : State}

/-- The scanner is inside the encoded frame: RB holds the frame, and the open attempt is a front of it. -/
structure Receiving (ft : Byte) (d : List Byte) (c : Bool) (s : State) : Prop where
  legal : s.params.Legal
  fits : d.length ≤ maxDataSize s.params
  rb : s.rb = physical (logicalFrame ft d c)
  opened : s.scn.phase ≠ .sync
  front : s.scn.asm = (logicalFrame ft d c).take s.scn.asm.length
  scanner : s.scn.Ok s.params s.rb

/-- What the scan of the encoded frame leaves (R113). -/
def received (now : Word) (ft : Byte) (d : List Byte) (c : Bool) (s : State) : State :=
  { s with
    rb := []
    scn := Scanner.idle
    fifo := s.fifo ++ [{ ftype := ft, useCrc := c, data := d, arrival := now }]
    stat := { s.stat with rxFrames := s.stat.rxFrames + 1 } }

/-- Once the header is in, the attempt knows the frame's type, CRC flag and data length. -/
theorem header_eq_of_front (hp : s.params.Legal) (hd : d.length ≤ maxDataSize s.params)
    (hfront : s.scn.asm = (logicalFrame ft d c).take s.scn.asm.length) (hten : 10 ≤ s.scn.asm.length) {hdr : Header}
    (hparse : parseHeader s.params (s.scn.asm.take 10) .empty = .ok hdr) : hdr = frameHeader ft d.length c := by
  have htake : s.scn.asm.take 10 = (logicalFrame ft d c).take 10 := by
    rw [hfront, List.take_take, Nat.min_eq_left hten]
  rw [htake, parseHeader_logicalFrame hp hd] at hparse
  exact (Except.ok.inj hparse).symm

theorem length_of_header {p : Params} (hp : p.Legal) (hd : d.length ≤ maxDataSize p) {scn : Scanner}
    (h : { ftype := scn.ftype, useCrc := scn.useCrc, dataLen := scn.dataLen } = frameHeader ft d.length c) :
    10 + scn.dataLen.toNat + trailerLen scn.useCrc = (logicalFrame ft d c).length := by
  rw [show scn.dataLen = (frameHeader ft d.length c).dataLen from congrArg Header.dataLen h,
    show scn.useCrc = c from congrArg Header.useCrc h, frameHeader_dataLen_toNat hp hd, logicalFrame_length]

/-- An open attempt is shorter than the frame. -/
theorem Receiving.asm_lt (h : Receiving ft d c s) : s.scn.asm.length < (logicalFrame ft d c).length := by
  have hlen := logicalFrame_length ft d c
  have hok := h.scanner
  unfold Scanner.Ok at hok
  split at hok
  case h_1 hsync => exact absurd hsync h.opened
  case h_2 =>
    obtain ⟨-, hshort, -⟩ := hok
    omega
  case h_3 =>
    obtain ⟨-, hten, hshort, hparse⟩ := hok
    have hheader := header_eq_of_front h.legal h.fits h.front hten hparse
    rwa [length_of_header h.legal h.fits hheader] at hshort

theorem Receiving.attempt (h : Receiving ft d c s) : Attempt s.rb s.scn := by
  have hok := h.scanner
  unfold Scanner.Ok at hok
  split at hok
  case h_1 hsync => exact absurd hsync h.opened
  case h_2 | h_3 => exact hok.1

/-- The unconsumed bytes of RB are the rest of the frame, stuffed. -/
theorem Receiving.unconsumed (h : Receiving ft d c s) : s.rb.drop s.scn.consumed =
    stuff ((logicalFrame ft d c)[s.scn.asm.length]'h.asm_lt) ++
      ((logicalFrame ft d c).drop (s.scn.asm.length + 1)).flatMap stuff := by
  have hfront : 2 ≤ ((logicalFrame ft d c).take s.scn.asm.length).length :=
    h.front ▸ attempt_asm_length h.attempt
  have hconsumed := h.attempt.consumed_eq
  rw [h.rb, physical_eq_append hfront, ← h.front, hconsumed, List.drop_left, List.drop_eq_getElem_cons h.asm_lt,
    List.flatMap_cons]

/-- The last byte of the frame is accepted: the frame is verified and pushed, and the scan ends with RB empty. -/
theorem scan_bodyDone (hp : s.params.Legal) (hd : d.length ≤ maxDataSize s.params)
    (hroom : s.fifo.length < s.params.fifoCap) (hrb : s.rb = physical (logicalFrame ft d c))
    (hattempt : Attempt s.rb s.scn) (hasm : s.scn.asm = logicalFrame ft d c)
    (hheader : { ftype := s.scn.ftype, useCrc := s.scn.useCrc, dataLen := s.scn.dataLen } =
      frameHeader ft d.length c) : scan now (bodyDone now s) = .ok (received now ft d c s) := by
  have hesc : s.scn.esc = BitVec.ofNat 8 ((coveredRange ft d c).count sep) := by
    rw [hattempt.escapes, hasm, show s.scn.dataLen = BitVec.ofNat 8 d.length from congrArg Header.dataLen hheader,
      show (BitVec.ofNat 8 d.length : Byte).toNat = d.length from frameHeader_dataLen_toNat hp hd ft c,
      coveredOf, logicalFrame_covered]
  have hparse : parseBody s.scn.asm { ftype := s.scn.ftype, useCrc := s.scn.useCrc, dataLen := s.scn.dataLen }
      s.scn.esc .headerOnly = .ok { ftype := ft, useCrc := c, data := d, status := .complete } := by
    rw [hheader, hasm, hesc, parseBody_logicalFrame hp hd]
  have hempty : s.rb.drop s.scn.consumed = [] := by
    rw [hattempt.consumed_eq, hasm, ← hrb, List.drop_length]
  have hdone : bodyDone now s = received now ft d c s := by
    rw [bodyDone_of_ok hparse, hempty, fifoPush_room (by exact Nat.ne_of_lt hroom)]
    rfl
  rw [hdone, scan_sync rfl]
  rfl

/-- The scan from inside the encoded frame ends with the frame received: by induction on the logical bytes left, of
which each pass accepts one. -/
theorem Receiving.scan (h : Receiving ft d c s) (hroom : s.fifo.length < s.params.fifoCap) :
    scan now s = .ok (received now ft d c s) := by
  induction hm : (logicalFrame ft d c).length - s.scn.asm.length generalizing s with
  | zero =>
    have hlt := h.asm_lt
    omega
  | succ m ih =>
    have hlt := h.asm_lt
    have hnext := h.unconsumed
    generalize hb : (logicalFrame ft d c)[s.scn.asm.length] = b at hnext
    have hgrown : Grown s.params s.rb (acceptByte b (b == sep) s.scn) := h.scanner.grown h.opened hnext
    have hlength : (acceptByte b (b == sep) s.scn).asm.length = s.scn.asm.length + 1 := by
      rw [acceptByte_asm, List.length_append, List.length_singleton]
    have hfront : (acceptByte b (b == sep) s.scn).asm = (logicalFrame ft d c).take (s.scn.asm.length + 1) := by
      rw [acceptByte_asm, List.take_add_one, List.getElem?_eq_getElem hlt, hb, ← h.front]
      rfl
    rw [scan_of_again (scanPass_open h.opened (nextLogical_of_stuff hnext))]
    show Machine.scan now (finishPart now { s with scn := acceptByte b (b == sep) s.scn }) = _
    generalize acceptByte b (b == sep) s.scn = grown at hgrown hlength hfront
    have hfront' : grown.asm = (logicalFrame ft d c).take grown.asm.length := hlength ▸ hfront
    have hless : (logicalFrame ft d c).length - grown.asm.length = m := by omega
    by_cases hheader : grown.phase = .header ∧ grown.asm.length = 10
    · have hparse : parseHeader s.params grown.asm .empty = .ok (frameHeader ft d.length c) := by
        rw [hfront', hheader.2, parseHeader_logicalFrame h.legal h.fits]
      rw [finishPart_of_header hheader, headerDone_of_ok hparse]
      exact ih ⟨h.legal, h.fits, h.rb, nofun, hfront', hgrown.attempt.toBody hheader.2 hparse⟩ hroom hless
    by_cases hbody : grown.phase = .body ∧ grown.asm.length = 10 + grown.dataLen.toNat + trailerLen grown.useCrc
    · rw [finishPart_of_body hheader hbody]
      obtain ⟨hten, hparse⟩ := hgrown.parsed hbody.1
      have hknown := header_eq_of_front (s := { s with scn := grown }) h.legal h.fits hfront' hten hparse
      have hasm : grown.asm = logicalFrame ft d c := by
        rw [hfront', hbody.2, length_of_header h.legal h.fits hknown, List.take_length]
      exact scan_bodyDone (s := { s with scn := grown }) h.legal h.fits hroom h.rb hgrown.attempt hasm hknown
    · rw [finishPart_of_inside hheader hbody]
      exact ih ⟨h.legal, h.fits, h.rb, hgrown.opened, hfront', hgrown.ok hheader hbody⟩ hroom hless

end

/-- The encoded frame begins with a start, which the search finds at once. -/
theorem syncSearch_physical {p : Params} (hp : p.Legal) {d : List Byte} (hd : d.length ≤ maxDataSize p) (ft : Byte)
    (c : Bool) : IsStart (physical (logicalFrame ft d c)) 0 ∧
      syncSearch (physical (logicalFrame ft d c)) = (0, true) := by
  have hstart : IsStart (physical (logicalFrame ft d c)) 0 := by
    rw [physical_logicalFrame_eq hp hd]
    exact ⟨by simp, rfl, rfl, fun hsep => sizeByte_ne_sep hp hd (Option.some.inj hsep)⟩
  refine ⟨hstart, ?_⟩
  rw [physical_logicalFrame_eq hp hd] at hstart ⊢
  exact syncSearch_cons_of_isStart hstart

/-- Settles O16: the start of the frame is locked, and from there the scan accepts the frame byte by byte. -/
theorem frameRoundTrip : Obligations.FrameRoundTrip := by
  intro s now ft d c hp hd hscn hrb hroom
  have hsync : s.scn.phase = .sync := by rw [hscn]; rfl
  obtain ⟨hstart, hsearch⟩ := syncSearch_physical hp hd ft c
  have hreceiving : Receiving ft d c (lock now s) :=
    ⟨hp, hd, hrb, nofun, (logicalFrame_take_two ft d c).symm, lock_scannerOk (hrb ▸ hstart) _ _⟩
  rw [processData, staleCheck_of_fresh (.inl hsync), scan_sync hsync, hrb, hsearch, dropGarbage_zero]
  refine (hreceiving.scan hroom).trans ?_
  rw [received, ← hscn]
  rfl

end Sys2Proof.Machine
end

section
/-! A request that nobody answers (44_sequencer.md R143) under one schedule of the agents' steps: for each attempt LOOP
sends the request, the clock runs past the answer timeout, and the next LOOP goes back to IDLE or gives up. -/

namespace Sys2Proof.Machine

/-! ### Runs -/

theorem run_append {m : Nat} {s t : State} (h : core.run m s = .next t) (n : Nat) :
    core.run (m + n) s = core.run n t := by
  induction m generalizing s with
  | zero =>
    obtain rfl : s = t := Host.Outcome.next.inj h
    rw [Nat.zero_add]
  | succ m ih =>
    rw [Nat.succ_add]
    simp only [Host.Core.run] at h ⊢
    split at h
    · exact ih h
    · cases h
    · cases h

/-- `TICK k` adds `k` to the clock and does nothing else. -/
theorem run_ticks (k : Nat) {s : State} {rest : List AgentStep} (h : s.pending = List.replicate k .tick ++ rest) :
    core.run k s = .next { s with time := s.time + BitVec.ofNat 32 k, pending := rest } := by
  induction k generalizing s with
  | zero =>
    obtain rfl : s.pending = rest := h
    show Host.Outcome.next s = .next { s with time := s.time + 0#32 }
    rw [BitVec.add_zero]
  | succ k ih =>
    have hstep : core.step s = .next { s with time := s.time + 1, pending := List.replicate k .tick ++ rest } :=
      step_of_pending h
    have htime : s.time + 1 + BitVec.ofNat 32 k = s.time + BitVec.ofNat 32 (k + 1) := by
      rw [BitVec.add_assoc, BitVec.add_comm 1, BitVec.ofNat_add]
      rfl
    simp only [Host.Core.run, hstep]
    rw [ih rfl, htime]

/-- After `k` ticks, fewer than the clock holds, `k` milliseconds have passed (00_scope.md R18). -/
theorem toNat_add_ofNat_sub (t : Word) {k : Nat} (hk : k < 2 ^ 32) : (t + BitVec.ofNat 32 k - t).toNat = k := by
  rw [BitVec.add_comm, BitVec.add_sub_cancel, BitVec.toNat_ofNat, Nat.mod_eq_of_lt hk]

/-! ### One attempt -/

/-- The agents' steps of one attempt: LOOP, `k` ticks, LOOP. -/
def attemptSteps (p : Params) (k : Nat) : List AgentStep :=
  cmd p .loop :: (List.replicate k .tick ++ [cmd p .loop])

/-- The wait `k` of the schedule: longer than the answer timeout, not shorter than the cooldown and the interval. -/
structure LongWait (p : Params) (h : OutItem) (k : Nat) : Prop where
  timeout : p.answerTimeoutMs < k
  cooldown : p.cooldownMs ≤ k
  interval : h.retryInterval.toNat ≤ k
  clock : k < 2 ^ 32

/-- Nothing comes in: no byte on the line or in RB, no open attempt, no frame, no callout held. -/
structure Silent (s : State) : Prop where
  callout : s.eng.callout = .none
  rxLine : s.rxLine = []
  rb : s.rb = []
  scn : s.scn = Scanner.idle
  fifo : s.fifo = []

/-- The request `h` is about to be sent. -/
structure ReadyToSend (h : OutItem) (s : State) : Prop extends Silent s where
  idle : s.eng.state = .idle
  oq : s.oq = [h]
  request : h.expectsAnswer = true
  fits : h.data.length ≤ maxDataSize s.params
  cooled : s.eng.coolArmed = false ∨ (s.time - s.eng.lastSend).toNat ≥ s.params.cooldownMs
  waited : (s.time - s.eng.retryBase).toNat ≥ s.eng.retryWait.toNat

/-- The request `h` has been sent and `k` milliseconds have passed. -/
def awaiting (h : OutItem) (k : Nat) (rest : List AgentStep) (s : State) : State :=
  { s with
    txLine := s.txLine ++ physical (logicalFrame h.ftype h.data h.useCrc)
    stat := { s.stat with txFrames := s.stat.txFrames + 1 }
    oq := [{ h with retries := h.retries - 1 }]
    eng := { s.eng with lastSend := s.time, coolArmed := true, state := .waiting, ansBase := s.time,
                        retryBase := s.time, retryWait := h.retryInterval.setWidth 32 }
    cmdStatus := .ok
    time := s.time + BitVec.ofNat 32 k
    pending := rest }

section
variable {h : OutItem} {k : Nat} {rest : List AgentStep} {s : State}

/-- LOOP sends the request that is ready. -/
theorem ReadyToSend.exec_loop (hs : ReadyToSend h s) : exec .loop s = .next (cmdOk (sendHead s.time h s)) := by
  have hscan := processData_quiet s.time hs.rxLine hs.rb hs.scn
  obtain ⟨-, -, hitem⟩ := idleLoopDispatchesOrSends s s hs.callout hscan hs.idle
  exact (hitem h [] hs.fifo hs.oq).1 ⟨hs.cooled, hs.waited⟩

/-- The first LOOP of an attempt and its ticks. -/
theorem ReadyToSend.run_send (hs : ReadyToSend h s)
    (hpending : s.pending = cmd s.params .loop :: (List.replicate k .tick ++ rest)) :
    core.run (k + 1) s = .next (awaiting h k rest s) := by
  have hready : ReadyToSend h { s with pending := List.replicate k .tick ++ rest } := { hs with }
  have hsent := sendHead_of_request s.time hready.oq hs.request
  rw [sendData_fits hready.fits] at hsent
  rw [run_of_cmd hpending hready.exec_loop, hsent]
  exact run_ticks k rfl

theorem LongWait.late (hwait : LongWait s.params h k) :
    ((awaiting h k rest s).time - (awaiting h k rest s).eng.ansBase).toNat > s.params.answerTimeoutMs :=
  (toNat_add_ofNat_sub s.time hwait.clock).symm ▸ hwait.timeout

/-- An attempt ends as its second LOOP does. -/
theorem ReadyToSend.run_attempt (hs : ReadyToSend h s) {t : State} (hexec : exec .loop (awaiting h k rest s) = .next t)
    (hpending : s.pending = attemptSteps s.params k ++ rest) : core.run (k + 2) s = .next t := by
  have hsend := hs.run_send (k := k) (rest := cmd s.params .loop :: rest) (by rw [hpending]; simp [attemptSteps])
  rw [show k + 2 = k + 1 + 1 from rfl, run_append hsend, run_of_cmd rfl hexec]
  rfl

theorem ReadyToSend.scan_awaiting (hs : ReadyToSend h s) :
    processData (awaiting h k rest s).time (readData (awaiting h k rest s)) = .ok (awaiting h k rest s) :=
  processData_quiet _ hs.rxLine hs.rb hs.scn

/-- With retries left the second LOOP of an attempt makes the request ready again. -/
theorem ReadyToSend.run_retry (hs : ReadyToSend h s) (hwait : LongWait s.params h k) (hleft : h.retries - 1 ≠ 0)
    (hpending : s.pending = attemptSteps s.params k ++ rest) :
    ∃ t, core.run (k + 2) s = .next t ∧ ReadyToSend { h with retries := h.retries - 1 } t ∧
      t.txLine = s.txLine ++ physical (logicalFrame h.ftype h.data h.useCrc) ∧
      t.stat = { s.stat with txFrames := s.stat.txFrames + 1 } ∧ t.params = s.params ∧ t.pending = rest := by
  obtain ⟨-, hretry, -⟩ := waitingLoopTimesOutOrAnswers (awaiting h k rest s) _ _ [] hs.callout hs.scan_awaiting rfl rfl
  have hclock := toNat_add_ofNat_sub s.time hwait.clock
  have hinterval : (h.retryInterval.setWidth 32).toNat ≤ k := by
    rw [BitVec.toNat_setWidth]
    exact (Nat.mod_le _ _).trans hwait.interval
  refine ⟨_, hs.run_attempt (hretry hwait.late hleft) hpending, ?_, rfl, rfl, rfl, rfl⟩
  exact { hs with
    idle := rfl
    oq := rfl
    cooled := .inr (hclock.symm ▸ hwait.cooldown)
    waited := hclock.symm ▸ hinterval }

/-- The end of an unanswered request: sent `sends` times, timed out once and reported. -/
structure TimedOut (h : OutItem) (sends : Nat) (rest : List AgentStep) (s t : State) : Prop where
  txLine : t.txLine = s.txLine ++ (List.replicate sends (physical (logicalFrame h.ftype h.data h.useCrc))).flatten
  stat : t.stat = { s.stat with txFrames := s.stat.txFrames + BitVec.ofNat 32 sends,
                                timeouts := s.stat.timeouts + 1 }
  oq : t.oq = []
  state : t.eng.state = .waiting
  callout : t.eng.callout = .timeout
  reqType : t.evt.reqType = h.ftype
  pending : t.pending = rest

/-- Without a retry left the second LOOP of an attempt gives up. -/
theorem ReadyToSend.run_last (hs : ReadyToSend h s) (hwait : LongWait s.params h k) (hlast : h.retries - 1 = 0)
    (hpending : s.pending = attemptSteps s.params k ++ rest) :
    ∃ t, core.run (k + 2) s = .next t ∧ TimedOut h 1 rest s t := by
  obtain ⟨hgiveUp, -⟩ := waitingLoopTimesOutOrAnswers (awaiting h k rest s) _ _ [] hs.callout hs.scan_awaiting rfl rfl
  have htx : s.txLine ++ physical (logicalFrame h.ftype h.data h.useCrc) =
      s.txLine ++ (List.replicate 1 (physical (logicalFrame h.ftype h.data h.useCrc))).flatten := by simp
  exact ⟨_, hs.run_attempt (hgiveUp hwait.late hlast) hpending, ⟨htx, rfl, rfl, rfl, rfl, rfl, rfl⟩⟩

/-- One more send before the request times out. -/
theorem TimedOut.after_retry {sends : Nat} {t u : State}
    (hu : TimedOut { h with retries := h.retries - 1 } sends rest t u)
    (htx : t.txLine = s.txLine ++ physical (logicalFrame h.ftype h.data h.useCrc))
    (hstat : t.stat = { s.stat with txFrames := s.stat.txFrames + 1 }) : TimedOut h (sends + 1) rest s u := by
  have hcount : s.stat.txFrames + 1 + BitVec.ofNat 32 sends = s.stat.txFrames + BitVec.ofNat 32 (sends + 1) := by
    rw [BitVec.add_assoc, BitVec.add_comm 1, BitVec.ofNat_add]
    rfl
  exact { hu with
    txLine := by
      rw [hu.txLine, htx, List.replicate_succ, List.flatten_cons, List.append_assoc]
    stat := by
      rw [hu.stat, hstat, ← hcount] }

/-- A request with `n + 1` sends left is sent `n + 1` times and then times out. -/
theorem ReadyToSend.run_attempts {n : Nat} (hs : ReadyToSend h s) (hwait : LongWait s.params h k)
    (hleft : h.retries.toNat = n + 1)
    (hpending : s.pending = (List.replicate (n + 1) (attemptSteps s.params k)).flatten ++ rest) :
    ∃ t, core.run ((n + 1) * (k + 2)) s = .next t ∧ TimedOut h (n + 1) rest s t := by
  induction n generalizing h s with
  | zero =>
    have hlast : h.retries - 1 = 0 := by bv_omega
    rw [Nat.zero_add, Nat.one_mul]
    exact hs.run_last hwait hlast (by rw [hpending]; simp)
  | succ n ih =>
    have hretries : (h.retries - 1).toNat = n + 1 := by bv_omega
    have hretry : h.retries - 1 ≠ 0 := by
      intro hzero
      rw [hzero] at hretries
      cases hretries
    rw [List.replicate_succ, List.flatten_cons, List.append_assoc] at hpending
    obtain ⟨t, hrun, ht, htx, hstat, hparams, hrest⟩ := hs.run_retry hwait hretry hpending
    have hwait' : LongWait t.params { h with retries := h.retries - 1 } k := by
      rw [hparams]
      exact { hwait with }
    obtain ⟨u, hrun', hu⟩ := ih ht hwait' hretries (by rw [hrest, hparams])
    refine ⟨u, ?_, hu.after_retry htx hstat⟩
    rw [Nat.succ_mul, Nat.add_comm, run_append hrun, hrun']

end

/-- The item that SEND_MESSAGE makes of the staged message (R133). -/
def stagedRequest (ft : Byte) (c : Bool) (r : Byte) (s : State) : OutItem :=
  { ftype := ft, data := stagedData s, useCrc := c, expectsAnswer := true, retries := retryCount s.params r,
    retryInterval := s.stg.retry }

/-- On an empty OQ a message that fits is queued. -/
theorem exec_sendMessage_of_empty {s : State} (hp : s.params.Legal) (hoq : s.oq = [])
    (hfits : (stagedData s).length ≤ maxDataSize s.params) (ft : Byte) (c : Bool) (r : Byte) :
    exec (.sendMessage ft c r) s = .next { s with oq := [stagedRequest ft c r s], cmdStatus := .ok } := by
  obtain ⟨-, -, -, -, -, hcap, -⟩ := hp
  have hroom : s.oq.length ≠ s.params.oqCap := by
    rw [hoq, List.length_nil]
    omega
  rw [exec_sendMessage, enqueueItem_room hfits hroom, hoq]
  rfl

/-- Settles O46: SEND_MESSAGE queues the request with its sends counted, and each attempt takes one of them. -/
theorem unansweredRequestIsRetried : Obligations.UnansweredRequestIsRetried := by
  intro s ft c r k rest hlegal hcallout hidle hline hrb hscn hfifo hoq hfits hcooled hwaited htimeout hcooldown
    hinterval hclock sends attempt hpending
  have hexec := exec_sendMessage_of_empty (s := { s with pending := (List.replicate sends attempt).flatten ++ rest })
    hlegal hoq hfits ft c r
  have hready : ReadyToSend (stagedRequest ft c r s) { s with
      oq := [stagedRequest ft c r s], cmdStatus := .ok
      pending := (List.replicate sends attempt).flatten ++ rest } :=
    { callout := hcallout, rxLine := hline, rb := hrb, scn := hscn, fifo := hfifo, idle := hidle, oq := rfl,
      request := rfl, fits := hfits, cooled := hcooled, waited := hwaited }
  obtain ⟨t, hrun, ht⟩ := hready.run_attempts (k := k) (rest := rest) ⟨htimeout, hcooldown, hinterval, hclock⟩
    (retryCount_toNat hlegal r) rfl
  refine ⟨t, ?_, ht.txLine, ht.stat, ht.oq, ht.state, ht.callout, ht.reqType, ht.pending⟩
  rw [Nat.add_comm, run_of_cmd hpending hexec]
  exact hrun

end Sys2Proof.Machine
end
